-- ==== Sys2Proof/Word.lean ====
section
/-! DEFINITION. The widths of spec/00_scope.md R6: a byte, the checksum accumulator and an F32 field.
The block never uses a signed integer; lengths, offsets and counts are `Nat`. -/

namespace Sys2Proof

/-- `Byte`: an unsigned 8-bit value (R6). -/
abbrev Byte := BitVec 8

/-- `U16`: the checksum accumulator's width (R6, 41_dispatcher.md R125). -/
abbrev U16 := BitVec 16

/-- `Word32`: the 32-bit IEEE-754 pattern an F32 field carries, never read as a number
(10_state.md R23, decision D10). -/
abbrev Word32 := BitVec 32

end Sys2Proof
end

