-- ==== Sys2Proof/Syntax.lean ====
section
/-! DEFINITION. The block's "instructions" are frames (spec/30_encoding.md): one constructor of `Instr` per row of
spec/opcode_table.json. The values a frame is decoded into (kinds, events, errors, results: 10_state.md R22 to R25)
stand here too, because the demultiplexer's own refusal of a command id is one of those errors. -/

namespace Sys2Proof

/-- The seven event kinds, in the order of 10_state.md R22. -/
inductive Kind where
  | button
  | color
  | quaternion
  | accelerometer
  | gyro
  | magnetometer
  | location
  deriving DecidableEq, Repr

/-! ### Frames as instructions -/

/-- The operand bytes of a Button frame (30_encoding.md R66). -/
structure ButtonOperands where
  button : Byte
  state : Byte
  deriving DecidableEq, Repr

/-- The operand bytes of a Color frame (R67). -/
structure ColorOperands where
  red : Byte
  green : Byte
  blue : Byte
  deriving DecidableEq, Repr

/-- The operands of a Quaternion frame: four F32 patterns (R68). -/
structure QuaternionOperands where
  x : Word32
  y : Word32
  z : Word32
  w : Word32
  deriving DecidableEq, Repr

/-- The operands of an Accelerometer, Gyro or Magnetometer frame: three F32 patterns (R69). -/
structure VectorOperands where
  x : Word32
  y : Word32
  z : Word32
  deriving DecidableEq, Repr

/-- The operands of a Location frame (R70). -/
structure LocationOperands where
  latitude : Word32
  longitude : Word32
  altitude : Word32
  deriving DecidableEq, Repr

/-- The two forms a candidate frame of a known kind takes after its command id (40_scanner.md R106): the whole frame
lies inside BUF, or the end of BUF cuts it off. -/
inductive Candidate (α : Type) where
  /-- the payload's fields and the received checksum byte -/
  | whole (operands : α) (checksum : Byte)
  /-- the bytes that BUF still holds after the command id -/
  | cut (body : List Byte)
  deriving DecidableEq, Repr

/-- One constructor per row of spec/opcode_table.json (42_payload_decoders.md R150 to R156). DESIGN CHOICE (assumption
log 12): the operands are the payload's fields, and a marker without a legal command id is no instruction. -/
inductive Instr where
  | button (c : Candidate ButtonOperands)
  | color (c : Candidate ColorOperands)
  | quaternion (c : Candidate QuaternionOperands)
  | accelerometer (c : Candidate VectorOperands)
  | gyro (c : Candidate VectorOperands)
  | magnetometer (c : Candidate VectorOperands)
  | location (c : Candidate LocationOperands)
  deriving DecidableEq, Repr

/-- The kind a frame's command id selects (R63). -/
def Instr.kind : Instr → Kind
  | .button _ => .button
  | .color _ => .color
  | .quaternion _ => .quaternion
  | .accelerometer _ => .accelerometer
  | .gyro _ => .gyro
  | .magnetometer _ => .magnetometer
  | .location _ => .location

/-- Does the candidate lie whole inside BUF? -/
def Candidate.isWhole {α : Type} : Candidate α → Bool
  | .whole _ _ => true
  | .cut _ => false

/-- Is the instruction a whole frame, not one that the end of BUF cuts off? -/
def Instr.isWhole : Instr → Bool
  | .button c => c.isWhole
  | .color c => c.isWhole
  | .quaternion c => c.isWhole
  | .accelerometer c => c.isWhole
  | .gyro c => c.isWhole
  | .magnetometer c => c.isWhole
  | .location c => c.isWhole

/-! ### Result values -/

/-- The eight buttons (10_state.md R23, 30_encoding.md R72). -/
inductive Button where
  | button1
  | button2
  | button3
  | button4
  | up
  | down
  | left
  | right
  deriving DecidableEq, Repr

/-- The two button states (R23, R73). -/
inductive ButtonState where
  | released
  | pressed
  deriving DecidableEq, Repr

/-- `Event`: seven variants of plain copied values (R23, R27). -/
inductive Event where
  | buttonEvent (button : Button) (state : ButtonState)
  | colorEvent (red green blue : Byte)
  | quaternionEvent (x y z w : Word32)
  | accelerometerEvent (x y z : Word32)
  | gyroEvent (x y z : Word32)
  | magnetometerEvent (x y z : Word32)
  | locationEvent (latitude longitude altitude : Word32)
  deriving DecidableEq, Repr

/-- `ButtonError`, nested inside `Error.buttonDecodeError` (R24). -/
inductive ButtonError where
  | unknownButton (b : Byte)
  | unknownButtonState (b : Byte)
  deriving DecidableEq, Repr

/-- `Error`: the six variants of R24, with the field types of decision D17. -/
inductive Error where
  | unknownEvent (id : Option Byte)
  | disabledEventKind (kind : Kind)
  | buttonDecodeError (e : ButtonError)
  | invalidLength (expected actual : Nat)
  /-- carried byte first, computed byte second (90_conflicts.md C3) -/
  | invalidChecksum (received calculated : Byte)
  /-- never reached through NEXT (60_exceptions.md R179) -/
  | invalidFloatEncoding (length : Nat)
  deriving DecidableEq, Repr

/-- `Result`: `Ok(Event)` or `Err(Error)` (R25). -/
inductive Result where
  | ok (e : Event)
  | err (e : Error)
  deriving DecidableEq, Repr

end Sys2Proof
end

