-- ==== Sys2Proof/Decode.lean ====
section
/-! DEFINITION. The frame format of spec/30_encoding.md: the marker, the command-id map, the payload layouts and the
byte order of an F32 field, read one way by `decode` and written the other way by `encode`. `decode` is total on byte
lists and rejects by name. -/

namespace Sys2Proof

/-! ### The command-id map -/

/-- The marker `'!'` (R62). -/
def marker : Byte := 0x21

/-- The command id of each kind (R63). UNVERIFIED (assumption log 13): the spec's hex column is general knowledge. -/
def Kind.commandId : Kind → Byte
  | .button => 0x42
  | .color => 0x43
  | .quaternion => 0x51
  | .accelerometer => 0x41
  | .gyro => 0x47
  | .magnetometer => 0x4D
  | .location => 0x4C

/-- KIND_OF (41_dispatcher.md R122): `none` stands for its `raise UnknownEvent(Some(id))`. -/
def kindOf (id : Byte) : Option Kind :=
  if id = 0x42 then some .button
  else if id = 0x43 then some .color
  else if id = 0x51 then some .quaternion
  else if id = 0x41 then some .accelerometer
  else if id = 0x47 then some .gyro
  else if id = 0x4D then some .magnetometer
  else if id = 0x4C then some .location
  else none

/-- PAYLOAD_LEN (R121). -/
def Kind.payloadLen : Kind → Nat
  | .button => 2
  | .color => 3
  | .quaternion => 16
  | .accelerometer => 12
  | .gyro => 12
  | .magnetometer => 12
  | .location => 12

/-- FRAME_LEN: marker, command id, payload, checksum (R61, R121). -/
def Kind.frameLen (k : Kind) : Nat := 1 + 1 + k.payloadLen + 1

/-! ### Payload layouts -/

/-- Byte `i` of a payload whose length has already been checked: every caller stays below that length, so the 0 that
closes the function off is never seen. -/
def byteAt (pl : List Byte) (i : Nat) : Byte := pl.getD i 0

/-- The little-endian assembly of an F32 field: `b0` is bits [7:0], `b3` bits [31:24] (R71). -/
def f32OfBytes (b0 b1 b2 b3 : Byte) : Word32 :=
  b0.setWidth 32 ||| (b1.setWidth 32 <<< 8) ||| (b2.setWidth 32 <<< 16) ||| (b3.setWidth 32 <<< 24)

/-- The four bytes of an F32 field, lowest offset first (R71). -/
def f32Bytes (v : Word32) : List Byte :=
  [v.extractLsb' 0 8, v.extractLsb' 8 8, v.extractLsb' 16 8, v.extractLsb' 24 8]

/-- The F32 field at payload bytes `o .. o+3` (R71). -/
def f32At (pl : List Byte) (o : Nat) : Word32 :=
  f32OfBytes (byteAt pl o) (byteAt pl (o + 1)) (byteAt pl (o + 2)) (byteAt pl (o + 3))

/-- R66. -/
def ButtonOperands.ofBytes (pl : List Byte) : ButtonOperands := ⟨byteAt pl 0, byteAt pl 1⟩

def ButtonOperands.toBytes (o : ButtonOperands) : List Byte := [o.button, o.state]

/-- R67. -/
def ColorOperands.ofBytes (pl : List Byte) : ColorOperands := ⟨byteAt pl 0, byteAt pl 1, byteAt pl 2⟩

def ColorOperands.toBytes (o : ColorOperands) : List Byte := [o.red, o.green, o.blue]

/-- R68. -/
def QuaternionOperands.ofBytes (pl : List Byte) : QuaternionOperands :=
  ⟨f32At pl 0, f32At pl 4, f32At pl 8, f32At pl 12⟩

def QuaternionOperands.toBytes (o : QuaternionOperands) : List Byte :=
  f32Bytes o.x ++ f32Bytes o.y ++ f32Bytes o.z ++ f32Bytes o.w

/-- R69. -/
def VectorOperands.ofBytes (pl : List Byte) : VectorOperands := ⟨f32At pl 0, f32At pl 4, f32At pl 8⟩

def VectorOperands.toBytes (o : VectorOperands) : List Byte := f32Bytes o.x ++ f32Bytes o.y ++ f32Bytes o.z

/-- R70. -/
def LocationOperands.ofBytes (pl : List Byte) : LocationOperands := ⟨f32At pl 0, f32At pl 4, f32At pl 8⟩

def LocationOperands.toBytes (o : LocationOperands) : List Byte :=
  f32Bytes o.latitude ++ f32Bytes o.longitude ++ f32Bytes o.altitude

/-! ### Decoding -/

/-- The candidate of a kind whose payload has `len` bytes, from the bytes after its command id: whole when the checksum
byte is there, otherwise cut off (40_scanner.md R106). -/
def Candidate.ofBody {α : Type} (len : Nat) (fields : List Byte → α) (body : List Byte) : Candidate α :=
  match body.drop len with
  | [] => .cut body
  | checksum :: _ => .whole (fields (body.take len)) checksum

/-- The instruction of kind `k` whose bytes after the command id are `body`. -/
def decodeKind (k : Kind) (body : List Byte) : Instr :=
  match k with
  | .button => .button (.ofBody 2 ButtonOperands.ofBytes body)
  | .color => .color (.ofBody 3 ColorOperands.ofBytes body)
  | .quaternion => .quaternion (.ofBody 16 QuaternionOperands.ofBytes body)
  | .accelerometer => .accelerometer (.ofBody 12 VectorOperands.ofBytes body)
  | .gyro => .gyro (.ofBody 12 VectorOperands.ofBytes body)
  | .magnetometer => .magnetometer (.ofBody 12 VectorOperands.ofBytes body)
  | .location => .location (.ofBody 12 LocationOperands.ofBytes body)

/-- Decoding what follows a marker: the instruction and the bytes after its frame, or the `UnknownEvent` that
40_scanner.md R105 and 41_dispatcher.md R122 raise. -/
def decodeAfterMarker : List Byte → Except Error (Instr × List Byte)
  | [] => .error (.unknownEvent none)
  | id :: body =>
    match kindOf id with
    | none => .error (.unknownEvent (some id))
    | some k => .ok (decodeKind k body, body.drop (k.payloadLen + 1))

/-- Why a byte list is no frame. -/
inductive DecodeError where
  /-- it does not begin with the marker (R62): the marker search passes over such a byte -/
  | noMarker
  /-- it begins with the marker and has no legal command id (R75) -/
  | rejected (e : Error)
  deriving DecidableEq, Repr

/-- Decoding a byte list from its marker on. -/
def decode : List Byte → Except DecodeError (Instr × List Byte)
  | [] => .error .noMarker
  | m :: rest =>
    if m = marker then
      match decodeAfterMarker rest with
      | .ok r => .ok r
      | .error e => .error (.rejected e)
    else .error .noMarker

/-! ### Encoding -/

/-- The bytes after the command id. -/
def Candidate.body {α : Type} (toBytes : α → List Byte) : Candidate α → List Byte
  | .whole operands checksum => toBytes operands ++ [checksum]
  | .cut body => body

/-- The bytes of an instruction after its command id. -/
def Instr.body : Instr → List Byte
  | .button c => c.body ButtonOperands.toBytes
  | .color c => c.body ColorOperands.toBytes
  | .quaternion c => c.body QuaternionOperands.toBytes
  | .accelerometer c => c.body VectorOperands.toBytes
  | .gyro c => c.body VectorOperands.toBytes
  | .magnetometer c => c.body VectorOperands.toBytes
  | .location c => c.body LocationOperands.toBytes

/-- The frame format of R61: marker, command id, payload, checksum. -/
def encode (i : Instr) : List Byte := marker :: i.kind.commandId :: i.body

/-! ### Words numbered as spec/opcode_table.json numbers them -/

/-- The longest frame (R64). -/
def maxFrameLen : Nat := 19

/-- Frame byte `k` of the number `w`. The table's `match` and `fixed` number the first two frame bytes as one 16-bit
opcode with frame byte 0, the marker, in bits 15..8 and frame byte 1, the command id, in bits 7..0 (0x2142 is BUTTON,
R63); a later byte `k` is bits 8k+7..8k. DEDUCED (assumption log 7). -/
def tableByte (w k : Nat) : Byte :=
  if k = 0 then BitVec.ofNat 8 (w / 2 ^ 8)
  else if k = 1 then BitVec.ofNat 8 w
  else BitVec.ofNat 8 (w / 2 ^ (8 * k))

/-- The frame bytes of a table word, in buffer order, every bit above `nbits` zero. -/
def tableBytes (nbits w : Nat) : List Byte :=
  (List.range maxFrameLen).map (tableByte (w % 2 ^ nbits))

/-- The instruction the decoder reads from a table word. -/
def decodeTableWord (nbits w : Nat) : Option Instr :=
  match decode (tableBytes nbits w) with
  | .ok (i, _) => some i
  | .error _ => none

end Sys2Proof
end

