-- ==== Sys2Proof/Config.lean ====
section
/-! DEFINITION. What one deployment of the block fixes: the three parameters of spec/00_scope.md R5.
They are configuration, not architectural state (10_state.md R11). `exec` and `step` take one argument, so a
`Params` travels in `State`; no operation writes it. Every claim quantifies over it (assumption log 1). -/

namespace Sys2Proof

/-- The type of MAX_RESULTS: a natural number or UNBOUNDED (R5). -/
inductive ResultBound where
  | unbounded
  | atMost (n : Nat)
  deriving DecidableEq, Repr

/-- The implementation parameters of R5. -/
structure Params where
  /-- BUF_LEN: the number of bytes of BUF, any natural number. -/
  bufLen : Nat
  /-- MAX_RESULTS: the most results one scan yields. -/
  maxResults : ResultBound
  /-- ENABLED_KINDS: bit k stands for the kind with code k (10_state.md R22). -/
  enabledKinds : BitVec 7
  deriving DecidableEq, Repr

/-- The values R5 names: the reference deployment's 32 bytes, no bound, every kind enabled.
DESIGN CHOICE (assumption log 2): R5 leaves the three parameters open. -/
def Params.reference : Params where
  bufLen := 32
  maxResults := .unbounded
  enabledKinds := 0b1111111

end Sys2Proof
end

