-- ==== Sys2Proof/Machine/State.lean ====
section
/-! DEFINITION. The state of one block instance and of the host that drives it (spec/10_state.md R10, R12), as plain
data, and the two ways a step can stop. -/

namespace Sys2Proof.Machine

/-- Why the machine stops. The block itself has no fault (20_memory.md R43, 60_exceptions.md R170): the one reason is
the host's. -/
inductive Fault where
  /-- Raised by the host input `write` when its offset is not below BUF_LEN: R40 gives BUF no such offset, and no rule
  says what such a write does. DESIGN CHOICE (assumption log 8). Safe: the model stops at an access to nothing. -/
  | noSuchOffset (offset : Nat)
  deriving DecidableEq, Repr

/-- Why the model gives an operation no meaning. -/
inductive Refusal where
  /-- Raised by an arm of `exec` whose instruction has no meaning yet; no arm raises it. Safe. -/
  | notModelled (mnemonic : String)
  /-- Raised by the host input `write` while ACTIVE = 1: 20_memory.md R47 and decision D16 refuse such a run. Safe. -/
  | bufferWrittenDuringScan (offset : Nat)
  /-- Raised by a direct call of DEC_F32 with more than 4 bytes (42_payload_decoders.md R140, decision D20); no step
  makes such a call. Safe. -/
  | f32SliceTooLong (length : Nat)
  deriving DecidableEq, Repr

/-- BUF as a list of (offset, byte) cells: offsets strictly rising, no cell holding the byte an unlisted offset reads
as (`Memory.wf` in Machine/Ops.lean). -/
abbrev Memory := List Host.Cell

/-- What the host can do to the block (40_scanner.md R117, 70_reset_and_hazards.md R200). Each is one atomic step
(00_scope.md R4). -/
inductive HostOp where
  /-- the block reset of R200 -/
  | reset
  /-- START (R100) -/
  | start
  /-- NEXT (R101) -/
  | next
  /-- the host, or its DMA engine, writes one byte of BUF -/
  | write (offset : Nat) (value : Byte)
  deriving DecidableEq, Repr

/-- `params` is the configuration of R11; `active`, `cursor` and `count` are the block's whole architectural state
(R12); `buf` is the host's buffer (R19); `inputs` and `received` are the host (R10): the operations it has yet to
issue, the next one first, and the values its NEXT operations have returned, the latest one first. DESIGN CHOICE
(assumption logs 1, 4, 5). -/
structure State where
  params : Params
  /-- ACTIVE: a scan is live (R16) -/
  active : Bool
  /-- CURSOR: the offset of the next byte the marker search examines (R14) -/
  cursor : Nat
  /-- COUNT: the results the live scan has yielded (R15) -/
  count : Nat
  buf : Memory
  inputs : List HostOp
  received : List (Option Result)
  deriving DecidableEq, Repr

/-- A block right after reset (R26, R200), in the reference deployment, with a buffer the host has not filled and
nothing issued or returned. -/
def State.reset : State where
  params := Params.reference
  active := false
  cursor := 0
  count := 0
  buf := []
  inputs := []
  received := []

/-- The outcome of a step of this machine. -/
abbrev Outcome := Host.Outcome State Fault Refusal

end Sys2Proof.Machine
end

