-- ==== Sys2Proof/Machine/Ops.lean ====
section
/-! DEFINITION. The named operations over BUF and over the block's three state elements. Every meaning and every host
operation is built from these. The block takes no exception (spec/60_exceptions.md R170, R183): an error result is
delivered by `State.complete`, the same operation that delivers an event, so that is the one shared operation an error
goes through, and nothing returns from one (R184). -/

namespace Sys2Proof.Machine

/-! ### BUF -/

/-- The byte at an offset the host has not written. DESIGN CHOICE (assumption log 3): R19 lets BUF hold any bytes. -/
def unfilledByte : Byte := 0

/-- MemRead(i, 1): a one-byte read, with no side effect (20_memory.md R41, R46). -/
def Memory.read : Memory → Nat → Byte
  | [], _ => unfilledByte
  | (a, v) :: rest, i => if a = i then v else Memory.read rest i

/-- A host write of one byte, keeping the canonical form. The block itself has no MemWrite (R42). -/
def Memory.write : Memory → Nat → Byte → Memory
  | [], i, v => if v = unfilledByte then [] else [(i, v)]
  | (a, w) :: rest, i, v =>
    if i < a then (if v = unfilledByte then (a, w) :: rest else (i, v) :: (a, w) :: rest)
    else if i = a then (if v = unfilledByte then rest else (i, v) :: rest)
    else (a, w) :: Memory.write rest i v

/-- The canonical form: offsets strictly rising, no cell equal to what an unlisted offset reads as. -/
def Memory.wf : Memory → Bool
  | [] => true
  | (a, v) :: rest => decide (v ≠ unfilledByte) && rest.all (fun c => decide (a < c.1)) && Memory.wf rest

/-- Consecutive host writes from offset `i` up. -/
def Memory.writeAll (m : Memory) (i : Nat) : List Byte → Memory
  | [] => m
  | v :: vs => Memory.writeAll (m.write i v) (i + 1) vs

/-- `BUF[a .. b)` (00_scope.md R6). -/
def Memory.slice (m : Memory) (a b : Nat) : List Byte := (List.range' a (b - a)).map m.read

/-- The first offset among `i, i+1, …, i+n-1` that holds the marker (40_scanner.md R102). -/
def Memory.findFrom (m : Memory) : (n i : Nat) → Option Nat
  | 0, _ => none
  | n + 1, i => if m.read i = marker then some i else Memory.findFrom m n (i + 1)

/-- FIND_MARKER(CURSOR) (R101, R102). -/
def State.findMarker (s : State) : Option Nat := s.buf.findFrom (s.params.bufLen - s.cursor) s.cursor

/-- The end of what NEXT reads for the marker at `p` (R105, R106, R115): the marker alone when nothing follows it, the
marker and the id when the id is unknown, otherwise the candidate frame, capped at the end of BUF. -/
def State.candidateEnd (s : State) (p : Nat) : Nat :=
  if s.params.bufLen ≤ p + 1 then p + 1
  else
    match kindOf (s.buf.read (p + 1)) with
    | none => p + 2
    | some k => min (p + k.frameLen) s.params.bufLen

/-- The bytes of the candidate frame at `p`, the marker first. -/
def State.candidateBytes (s : State) (p : Nat) : List Byte := s.buf.slice p (s.candidateEnd p)

/-! ### ACTIVE, CURSOR, COUNT and the returned value -/

/-- START (40_scanner.md R100). -/
def State.start (s : State) : State := { s with active := true, cursor := 0, count := 0 }

/-- The block reset (10_state.md R26, 70_reset_and_hazards.md R200): configuration and BUF are untouched. -/
def State.blockReset (s : State) : State := { s with active := false, cursor := 0, count := 0 }

/-- NEXT returns a value to the host (10_state.md R21). -/
def State.answer (s : State) (v : Option Result) : State := { s with received := v :: s.received }

/-- NEXT completes for the marker at CURSOR with result `r`, an event or an error alike (40_scanner.md R104,
60_exceptions.md R170). -/
def State.complete (s : State) (r : Result) : State :=
  { s with cursor := s.cursor + 1, count := s.count + 1, received := some r :: s.received }

/-- Has the live scan yielded MAX_RESULTS results (R108)? -/
def State.boundReached (s : State) : Bool :=
  match s.params.maxResults with
  | .unbounded => false
  | .atMost n => decide (s.count = n)

/-- NEXT ends the scan without searching (R108). -/
def State.endAtBound (s : State) : State := { s with active := false }.answer none

/-- NEXT ends the scan with no marker left (R103). -/
def State.endOfBuffer (s : State) : State := { s with cursor := s.params.bufLen, active := false }.answer none

/-- The scanner stands at the marker the search found. -/
def State.atMarker (s : State) (p : Nat) : State := { s with cursor := p }

/-- The host writes one byte of BUF: a liberty while ACTIVE = 0, a broken duty while ACTIVE = 1 (20_memory.md R47,
40_scanner.md R117). DESIGN CHOICE (assumption log 8): the offset is tested first. -/
def State.hostWrite (s : State) (i : Nat) (v : Byte) : Outcome :=
  if s.params.bufLen ≤ i then .fault (.noSuchOffset i)
  else if s.active then .refused (.bufferWrittenDuringScan i)
  else .next { s with buf := s.buf.write i v }

/-! ### Placing an instruction -/

/-- MAX_RESULTS raised, where it is a bound, so that one more result than `n` is allowed. -/
def roomFor (n : Nat) : ResultBound → ResultBound
  | .unbounded => .unbounded
  | .atMost m => .atMost (max m (n + 1))

/-- A live scan that stands at `bytes`, with NEXT the host's next operation (assumption log 6). -/
def State.stage (s : State) (bytes : List Byte) : State :=
  { s with
    params := { s.params with
      bufLen := max s.params.bufLen (s.cursor + bytes.length)
      maxResults := roomFor s.count s.params.maxResults }
    active := true
    buf := s.buf.writeAll s.cursor bytes
    inputs := .next :: s.inputs }

end Sys2Proof.Machine
end

