-- ==== Sys2Proof/Machine/Operands.lean ====
section
/-! DEFINITION. What the payload of each frame kind means (spec/42_payload_decoders.md part 1): from operand fields to
an event or a semantic error, and the decoders as standalone functions of a byte slice that re-validate its length
(R157). -/

namespace Sys2Proof.Machine

/-- BUTTON_OF (R142, 30_encoding.md R72); `none` stands for its `raise`. -/
def buttonOf (x : Byte) : Option Button :=
  if x = 0x31 then some .button1
  else if x = 0x32 then some .button2
  else if x = 0x33 then some .button3
  else if x = 0x34 then some .button4
  else if x = 0x35 then some .up
  else if x = 0x36 then some .down
  else if x = 0x37 then some .left
  else if x = 0x38 then some .right
  else none

/-- STATE_OF (R143, 30_encoding.md R73); `none` stands for its `raise`. -/
def stateOf (x : Byte) : Option ButtonState :=
  if x = 0x30 then some .released
  else if x = 0x31 then some .pressed
  else none

/-! ### From fields to a result -/

/-- R141: the button byte is checked first and decides the error. -/
def buttonResult (o : ButtonOperands) : Result :=
  match buttonOf o.button with
  | none => .err (.buttonDecodeError (.unknownButton o.button))
  | some b =>
    match stateOf o.state with
    | none => .err (.buttonDecodeError (.unknownButtonState o.state))
    | some st => .ok (.buttonEvent b st)

/-- R144: no validation beyond the length. -/
def colorResult (o : ColorOperands) : Result := .ok (.colorEvent o.red o.green o.blue)

/-- R145. -/
def quaternionResult (o : QuaternionOperands) : Result := .ok (.quaternionEvent o.x o.y o.z o.w)

/-- R146. -/
def accelerometerResult (o : VectorOperands) : Result := .ok (.accelerometerEvent o.x o.y o.z)

/-- R147. -/
def gyroResult (o : VectorOperands) : Result := .ok (.gyroEvent o.x o.y o.z)

/-- R148. -/
def magnetometerResult (o : VectorOperands) : Result := .ok (.magnetometerEvent o.x o.y o.z)

/-- R149. -/
def locationResult (o : LocationOperands) : Result := .ok (.locationEvent o.latitude o.longitude o.altitude)

/-! ### Standalone decoders of a byte slice -/

/-- The three things a direct call of DEC_F32 can come to (R140). -/
inductive F32Outcome where
  | word (v : Word32)
  | raises (e : Error)
  | refused (r : Refusal)
  deriving DecidableEq, Repr

/-- DEC_F32 (R140); more than 4 bytes are refused (decision D20, assumption log 9). -/
def decF32 (bs : List Byte) : F32Outcome :=
  if bs.length < 4 then .raises (.invalidFloatEncoding bs.length)
  else if bs.length = 4 then .word (f32At bs 0)
  else .refused (.f32SliceTooLong bs.length)

/-- The length check each decoder makes before anything else; `expected` is the payload length (R157, decision D19). -/
def withLength (len : Nat) (pl : List Byte) (r : Result) : Result :=
  if pl.length = len then r else .err (.invalidLength len pl.length)

/-- DEC_BUTTON (R141). -/
def decButton (pl : List Byte) : Result := withLength 2 pl (buttonResult (.ofBytes pl))

/-- DEC_COLOR (R144). -/
def decColor (pl : List Byte) : Result := withLength 3 pl (colorResult (.ofBytes pl))

/-- DEC_QUATERNION (R145). -/
def decQuaternion (pl : List Byte) : Result := withLength 16 pl (quaternionResult (.ofBytes pl))

/-- DEC_ACCELEROMETER (R146). -/
def decAccelerometer (pl : List Byte) : Result := withLength 12 pl (accelerometerResult (.ofBytes pl))

/-- DEC_GYRO (R147). -/
def decGyro (pl : List Byte) : Result := withLength 12 pl (gyroResult (.ofBytes pl))

/-- DEC_MAGNETOMETER (R148). -/
def decMagnetometer (pl : List Byte) : Result := withLength 12 pl (magnetometerResult (.ofBytes pl))

/-- DEC_LOCATION (R149). -/
def decLocation (pl : List Byte) : Result := withLength 12 pl (locationResult (.ofBytes pl))

/-- DECODE_PAYLOAD (41_dispatcher.md R129). -/
def decodePayload (k : Kind) (pl : List Byte) : Result :=
  match k with
  | .button => decButton pl
  | .color => decColor pl
  | .quaternion => decQuaternion pl
  | .accelerometer => decAccelerometer pl
  | .gyro => decGyro pl
  | .magnetometer => decMagnetometer pl
  | .location => decLocation pl

end Sys2Proof.Machine
end

