-- ==== Sys2Proof/Machine/Flags.lean ====
section
/-! DEFINITION. The block has no flags, condition codes or predicates (spec/10_state.md R17): no field of State is one
and no operation writes one. What decides an outcome is the frame's own checks, which stand here: the checksum, the
enablement bit and their order (spec/41_dispatcher.md). -/

namespace Sys2Proof.Machine

/-- The kind codes of 10_state.md R22. -/
def kindCode : Kind → Nat
  | .button => 0
  | .color => 1
  | .quaternion => 2
  | .accelerometer => 3
  | .gyro => 4
  | .magnetometer => 5
  | .location => 6

/-- Is bit `code(k)` of ENABLED_KINDS 1 (R128)? -/
def kindEnabled (p : Params) (k : Kind) : Bool := p.enabledKinds.getLsbD (kindCode k)

/-- The 16-bit wrapping sum of a byte list (R125). -/
def sum16 (acc : U16) : List Byte → U16
  | [] => acc
  | b :: bs => sum16 (acc + b.setWidth 16) bs

/-- CHECKSUM: every frame byte but the last, summed, complemented, masked to 8 bits (R125). -/
def checksum (f : List Byte) : Byte := (~~~ sum16 0 f.dropLast).extractLsb' 0 8

/-- The checks of a frame of the right length, in their order: checksum, enablement, payload (R123, R126 to R128).
`decoded` is what the payload decoder answers; it counts only when both checks pass. -/
def validated (p : Params) (k : Kind) (f : List Byte) (decoded : Result) : Result :=
  if byteAt f (k.payloadLen + 2) ≠ checksum f then
    .err (.invalidChecksum (byteAt f (k.payloadLen + 2)) (checksum f))
  else if kindEnabled p k then decoded
  else .err (.disabledEventKind k)

/-- DISPATCH on the bytes of a candidate frame (R123). -/
def dispatch (p : Params) (k : Kind) (f : List Byte) : Result :=
  if f.length ≠ k.frameLen then .err (.invalidLength k.frameLen f.length)
  else validated p k f (decodePayload k ((f.drop 2).take k.payloadLen))

/-- The result of a candidate whose fields are already pulled apart: DISPATCH's checks in DISPATCH's order, with
`toBytes` giving the bytes the checksum covers and `result` the meaning of the payload. -/
def candidateResult {α : Type} (p : Params) (k : Kind) (toBytes : α → List Byte) (result : α → Result) :
    Candidate α → Result
  | .cut body => .err (.invalidLength k.frameLen (body.length + 2))
  | .whole o cs => validated p k (marker :: k.commandId :: (toBytes o ++ [cs])) (result o)

end Sys2Proof.Machine
end

