-- ==== Sys2Proof/Machine/ButtonFrame.lean ====
section
/-! DEFINITION. The BUTTON frame (spec/42_payload_decoders.md R150). -/

namespace Sys2Proof.Machine

/-- BUTTON (R150). The scanner stands at the frame's marker. -/
def execButton (c : Candidate ButtonOperands) (s : State) : Outcome :=
  .next (s.complete (candidateResult s.params .button ButtonOperands.toBytes buttonResult c))

end Sys2Proof.Machine
end

