-- ==== Sys2Proof/Machine/ColorFrame.lean ====
section
/-! DEFINITION. The COLOR frame (spec/42_payload_decoders.md R151). -/

namespace Sys2Proof.Machine

/-- COLOR (R151). The scanner stands at the frame's marker. -/
def execColor (c : Candidate ColorOperands) (s : State) : Outcome :=
  .next (s.complete (candidateResult s.params .color ColorOperands.toBytes colorResult c))

end Sys2Proof.Machine
end

