-- ==== Sys2Proof/Machine/FloatFrames.lean ====
section
/-! DEFINITION. The five float kinds (spec/42_payload_decoders.md R152 to R156). In each, the scanner stands at the
frame's marker. -/

namespace Sys2Proof.Machine

/-- QUATERNION (R152). -/
def execQuaternion (c : Candidate QuaternionOperands) (s : State) : Outcome :=
  .next (s.complete (candidateResult s.params .quaternion QuaternionOperands.toBytes quaternionResult c))

/-- ACCELEROMETER (R153). -/
def execAccelerometer (c : Candidate VectorOperands) (s : State) : Outcome :=
  .next (s.complete (candidateResult s.params .accelerometer VectorOperands.toBytes accelerometerResult c))

/-- GYRO (R154). -/
def execGyro (c : Candidate VectorOperands) (s : State) : Outcome :=
  .next (s.complete (candidateResult s.params .gyro VectorOperands.toBytes gyroResult c))

/-- MAGNETOMETER (R155). -/
def execMagnetometer (c : Candidate VectorOperands) (s : State) : Outcome :=
  .next (s.complete (candidateResult s.params .magnetometer VectorOperands.toBytes magnetometerResult c))

/-- LOCATION (R156). -/
def execLocation (c : Candidate LocationOperands) (s : State) : Outcome :=
  .next (s.complete (candidateResult s.params .location LocationOperands.toBytes locationResult c))

end Sys2Proof.Machine
end

