-- ==== Sys2Proof/Machine/Dispatch.lean ====
section
/-! DEFINITION. One arm per constructor of `Instr`, each a direct call of that frame kind's meaning. -/

namespace Sys2Proof.Machine

/-- The effect of the frame `i` whose marker stands at CURSOR. -/
def exec (i : Instr) (s : State) : Host.Outcome State Fault Refusal :=
  match i with
  | .button c => Sys2Proof.Machine.execButton c s
  | .color c => Sys2Proof.Machine.execColor c s
  | .quaternion c => Sys2Proof.Machine.execQuaternion c s
  | .accelerometer c => Sys2Proof.Machine.execAccelerometer c s
  | .gyro c => Sys2Proof.Machine.execGyro c s
  | .magnetometer c => Sys2Proof.Machine.execMagnetometer c s
  | .location c => Sys2Proof.Machine.execLocation c s

end Sys2Proof.Machine
end

