-- ==== Sys2Proof/Machine/Scanner.lean ====
section
/-! DEFINITION. The stream scanner (spec/40_scanner.md): NEXT, with decoding and running the frame at the marker, and
the host's other operations. -/

namespace Sys2Proof.Machine

/-- DECODE_AT(p) as R101 writes it, on the bytes of BUF. The step itself decodes to an instruction and runs it
(`runAtMarker`); that both come to one result is a claim about the model. -/
def decodeAt (s : State) (p : Nat) : Result :=
  if s.params.bufLen ≤ p + 1 then .err (.unknownEvent none)
  else
    match kindOf (s.buf.read (p + 1)) with
    | none => .err (.unknownEvent (some (s.buf.read (p + 1))))
    | some k => dispatch s.params k (s.buf.slice p (min (p + k.frameLen) s.params.bufLen))

/-- The frame at CURSOR, which holds the marker: run as an instruction, or completed with the error that its missing
or unknown command id raises (R105, 41_dispatcher.md R122). -/
def runAtMarker (s : State) : Outcome :=
  match decodeAfterMarker (s.candidateBytes s.cursor).tail with
  | .ok (i, _) => exec i s
  | .error e => .next (s.complete (.err e))

/-- NEXT (R101). -/
def execNext (s : State) : Outcome :=
  if s.active then
    if s.boundReached then .next s.endAtBound
    else
      match s.findMarker with
      | none => .next s.endOfBuffer
      | some p => runAtMarker (s.atMarker p)
  else .next (s.answer none)

/-- One operation of the host. -/
def hostStep (op : HostOp) (s : State) : Outcome :=
  match op with
  | .reset => .next s.blockReset
  | .start => .next s.start
  | .next => execNext s
  | .write i v => s.hostWrite i v

/-- The machine takes the host's next operation; when the host has issued none the block holds its state and does
nothing (10_state.md R10, 60_exceptions.md R190). -/
def takeInput (s : State) : Outcome :=
  match s.inputs with
  | [] => .next s
  | op :: rest => hostStep op { s with inputs := rest }

end Sys2Proof.Machine
end

