-- ==== Sys2Proof/Machine/Step.lean ====
section
/-! DEFINITION. One step: one whole host operation (spec/00_scope.md R4). -/

namespace Sys2Proof.Machine

/-- One step of the machine. -/
def step (s : State) : Host.Outcome State Fault Refusal := takeInput s

/-- `s` with the frame of a table word standing at CURSOR of a live scan and NEXT issued, so that the next step
fetches and runs exactly it (assumption log 6). -/
def State.withFetchWord (s : State) (nbits w : Nat) : State := s.stage (tableBytes nbits w)

end Sys2Proof.Machine
end

