-- ==== Sys2Proof/Machine/Errors.lean ====
section
/-! DEFINITION. The error catalogue of spec/60_exceptions.md: codes (R171) and categories (R180). -/

namespace Sys2Proof.Machine

/-- The numeric code of an error (R171, decision D7). -/
def errorCode : Error → Nat
  | .unknownEvent _ => 1
  | .disabledEventKind _ => 2
  | .buttonDecodeError (.unknownButton _) => 3
  | .buttonDecodeError (.unknownButtonState _) => 4
  | .invalidLength _ _ => 5
  | .invalidChecksum _ _ => 6
  | .invalidFloatEncoding _ => 7

/-- The three categories of R180. -/
inductive ErrorCategory where
  | structural
  | semantic
  | configuration
  deriving DecidableEq, Repr

/-- The category of an error (R171, R180). -/
def errorCategory : Error → ErrorCategory
  | .unknownEvent _ => .structural
  | .invalidLength _ _ => .structural
  | .invalidChecksum _ _ => .structural
  | .buttonDecodeError _ => .semantic
  | .invalidFloatEncoding _ => .semantic
  | .disabledEventKind _ => .configuration

end Sys2Proof.Machine
end

