-- ==== Sys2Proof/Machine/Packing.lean ====
section
/-! DEFINITION. The 168-bit output record of spec/10_state.md R25. The abstract `Result` is normative; this is what a
bit-level output port carries for it. -/

namespace Sys2Proof.Machine

/-- The button codes of 30_encoding.md R72. -/
def buttonCode : Button → Nat
  | .button1 => 0
  | .button2 => 1
  | .button3 => 2
  | .button4 => 3
  | .up => 4
  | .down => 5
  | .left => 6
  | .right => 7

/-- The state codes of R73. -/
def stateCode : ButtonState → Nat
  | .released => 0
  | .pressed => 1

/-- The kind an event is of. -/
def eventKind : Event → Kind
  | .buttonEvent _ _ => .button
  | .colorEvent _ _ _ => .color
  | .quaternionEvent _ _ _ _ => .quaternion
  | .accelerometerEvent _ _ _ => .accelerometer
  | .gyroEvent _ _ _ => .gyro
  | .magnetometerEvent _ _ _ => .magnetometer
  | .locationEvent _ _ _ => .location

/-- The `data` field of an event. -/
def eventData : Event → BitVec 160
  | .buttonEvent b st => BitVec.ofNat 160 (stateCode st * 2 ^ 8 + buttonCode b)
  | .colorEvent r g b => (b ++ g ++ r : BitVec 24).setWidth 160
  | .quaternionEvent x y z w => (w ++ z ++ y ++ x : BitVec 128).setWidth 160
  | .accelerometerEvent x y z => (z ++ y ++ x : BitVec 96).setWidth 160
  | .gyroEvent x y z => (z ++ y ++ x : BitVec 96).setWidth 160
  | .magnetometerEvent x y z => (z ++ y ++ x : BitVec 96).setWidth 160
  | .locationEvent lat lon alt => (alt ++ lon ++ lat : BitVec 96).setWidth 160

/-- `present`, `arg1` and `arg0` in the `data` field of an error. -/
def argData (present : BitVec 1) (arg1 arg0 : BitVec 16) : BitVec 160 :=
  (present ++ arg1 ++ arg0 : BitVec 33).setWidth 160

/-- A length as a 16-bit argument; `none` when it does not fit, as R25 warns for a standalone decoder.
DESIGN CHOICE (assumption log 14). -/
def lengthArg (n : Nat) : Option (BitVec 16) := if n < 2 ^ 16 then some (BitVec.ofNat 16 n) else none

/-- The `data` field of an error. -/
def errorData : Error → Option (BitVec 160)
  | .unknownEvent none => some (argData 0 0 0)
  | .unknownEvent (some id) => some (argData 1 0 (id.setWidth 16))
  | .disabledEventKind _ => some 0
  | .buttonDecodeError (.unknownButton b) => some (argData 0 0 (b.setWidth 16))
  | .buttonDecodeError (.unknownButtonState b) => some (argData 0 0 (b.setWidth 16))
  | .invalidLength e a =>
    match lengthArg e, lengthArg a with
    | some e16, some a16 => some (argData 0 a16 e16)
    | _, _ => none
  | .invalidChecksum r c => some (argData 0 (c.setWidth 16) (r.setWidth 16))
  | .invalidFloatEncoding n =>
    match lengthArg n with
    | some n16 => some (argData 0 0 n16)
    | none => none

/-- The kind code an error record carries. -/
def errorKindCode : Error → Nat
  | .disabledEventKind k => kindCode k
  | _ => 0

/-- The record's layout: `data` [167:8], reserved [7], `err` [6:4], `kind` [3:1], `is_err` [0]. -/
def layout (data : BitVec 160) (err kind : Nat) (isErr : BitVec 1) : BitVec 168 :=
  data ++ (0 : BitVec 1) ++ BitVec.ofNat 3 err ++ BitVec.ofNat 3 kind ++ isErr

/-- The packed result (R25); `none` for a length of 2^16 or more. -/
def packResult : Result → Option (BitVec 168)
  | .ok e => some (layout (eventData e) 0 (kindCode (eventKind e)) 0)
  | .err e =>
    match errorData e with
    | some d => some (layout d (errorCode e) (errorKindCode e) 1)
    | none => none

end Sys2Proof.Machine
end

