-- ==== Sys2Proof/Safety.lean ====
section
/-! DEFINITION. The terms claims are stated in: where the markers of BUF lie, what the live scan has yielded, the
invariants of spec/10_state.md R28, and what a host does that keeps its duties. -/

namespace Sys2Proof.Machine

/-- The offsets below `c` that hold the marker, in increasing order. -/
def markersBelow (s : State) (c : Nat) : List Nat :=
  (List.range c).filter (fun i => decide (s.buf.read i = marker))

/-- The results the scan since the last START has yielded, the latest one first: the last COUNT results returned. -/
def scanResults (s : State) : List Result := (s.received.filterMap id).take s.count

/-- BUF is in canonical form and lists no offset at or beyond BUF_LEN (20_memory.md R40). -/
def State.bufferWf (s : State) : Bool := s.buf.wf && s.buf.all (fun c => decide (c.1 < s.params.bufLen))

/-- R28 (a) and (c). -/
def State.inRange (s : State) : Prop :=
  s.cursor ≤ s.params.bufLen ∧ ∀ n, s.params.maxResults = .atMost n → s.count ≤ n

/-- R28 (b) and (d): one result for each marker below CURSOR, in order, and COUNT is their number. -/
def State.scanRecorded (s : State) : Prop :=
  s.count = (markersBelow s s.cursor).length ∧
    scanResults s = ((markersBelow s s.cursor).map (decodeAt s)).reverse

/-- The invariant of a live scan; BUF is constant while ACTIVE = 1 (R47), so nothing more is assumed. -/
def State.liveScanRecorded (s : State) : Prop := s.active = true → s.scanRecorded

/-- Is the host input a write of BUF? -/
def HostOp.isWrite : HostOp → Bool
  | .write _ _ => true
  | .reset => false
  | .start => false
  | .next => false

/-- A host that issues START, NEXT and reset only: it breaks no duty, whatever BUF holds. -/
def State.quietHost (s : State) : Bool := s.inputs.all (fun op => !op.isWrite)

/-- The sum of the four bytes of an F32 pattern, mod 256: its share of a frame's checksum (41_dispatcher.md R125). -/
def wordByteSum (v : Word32) : Byte :=
  v.extractLsb' 0 8 + v.extractLsb' 8 8 + v.extractLsb' 16 8 + v.extractLsb' 24 8

/-- `n` steps, stopping at the first fault or refusal. -/
def runSteps : Nat → State → Outcome
  | 0, s => .next s
  | n + 1, s =>
    match step s with
    | .next t => runSteps n t
    | .fault r => .fault r
    | .refused r => .refused r

/-- START and then `n` NEXT operations. -/
def scanOps (n : Nat) : List HostOp := .start :: List.replicate n .next

end Sys2Proof.Machine
end

