-- ==== Sys2Proof/WellFormed.lean ====
section
/-! DEFINITION. Which instructions can stand in BUF. The operands of a whole frame are bytes and 32-bit patterns, every
value of which may occur (spec/30_encoding.md R67, R71, R76). The one check is on a frame that the end of BUF cuts off:
at least its checksum byte is missing (40_scanner.md R106). -/

namespace Sys2Proof

/-- A cut-off candidate holds at most the payload's bytes. -/
def Candidate.wellFormed {α : Type} (len : Nat) : Candidate α → Bool
  | .whole _ _ => true
  | .cut body => decide (body.length ≤ len)

/-- Is the instruction one that a byte sequence can hold? -/
def Instr.wellFormed : Instr → Bool
  | .button c => c.wellFormed 2
  | .color c => c.wellFormed 3
  | .quaternion c => c.wellFormed 16
  | .accelerometer c => c.wellFormed 12
  | .gyro c => c.wellFormed 12
  | .magnetometer c => c.wellFormed 12
  | .location c => c.wellFormed 12

end Sys2Proof
end

