-- ==== Sys2Proof/Certificates/Slice0/Obligations.lean ====
section
/-! DEFINITION. What is claimed of the model, statement by statement. "NEXT at a live scan" below means: the host's next
operation is NEXT, ACTIVE = 1 and the result bound is not reached. -/

open Sys2Proof Sys2Proof.Machine

/-! ### Encoding and decoding -/

/-- R61, R63, R66 to R71, R106: decoding the bytes of any well-formed instruction gives it back, with every operand at
every value, and leaves what follows the frame; a cut-off frame has nothing after it, because BUF ends there. -/
def Obligations.DecodeInvertsEncode : Prop :=
  ∀ (i : Instr) (rest : List Byte), i.wellFormed = true → (i.isWhole = true ∨ rest = []) →
    decode (encode i ++ rest) = .ok (i, rest)

/-- R61 to R71, R77: a decoded instruction's encoding and what follows it are the decoded bytes, so no byte is dropped
and no two byte sequences share a meaning; and what is decoded is well formed. -/
def Obligations.EncodeInvertsDecode : Prop :=
  ∀ (bs : List Byte) (i : Instr) (rest : List Byte), decode bs = .ok (i, rest) →
    encode i ++ rest = bs ∧ i.wellFormed = true ∧ (i.isWhole = true ∨ rest = [])

/-- The examples of R150 to R156, byte for byte. -/
def Obligations.ExampleFramesDecode : Prop :=
  decode [0x21, 0x42, 0x31, 0x31, 0x3A] = .ok (.button (.whole ⟨0x31, 0x31⟩ 0x3A), []) ∧
  decode [0x21, 0x43, 0x12, 0x34, 0x56, 0xFF] = .ok (.color (.whole ⟨0x12, 0x34, 0x56⟩ 0xFF), []) ∧
  decode [0x21, 0x51, 0x00, 0x00, 0x00, 0x00, 0x00, 0x00, 0x80, 0x3F, 0x00, 0x00, 0x80, 0xBF, 0x00, 0x00, 0x00, 0x3F,
      0x50] =
    .ok (.quaternion (.whole ⟨0x00000000, 0x3F800000, 0xBF800000, 0x3F000000⟩ 0x50), []) ∧
  decode [0x21, 0x41, 0x00, 0x00, 0x80, 0x3F, 0x00, 0x00, 0x00, 0x40, 0x00, 0x00, 0x40, 0x40, 0x1E] =
    .ok (.accelerometer (.whole ⟨0x3F800000, 0x40000000, 0x40400000⟩ 0x1E), []) ∧
  decode [0x21, 0x47, 0x00, 0x00, 0x80, 0x3F, 0x00, 0x00, 0x00, 0x40, 0x00, 0x00, 0x40, 0x40, 0x18] =
    .ok (.gyro (.whole ⟨0x3F800000, 0x40000000, 0x40400000⟩ 0x18), []) ∧
  decode [0x21, 0x4D, 0x00, 0x00, 0x80, 0x3F, 0x00, 0x00, 0x00, 0x40, 0x00, 0x00, 0x40, 0x40, 0x12] =
    .ok (.magnetometer (.whole ⟨0x3F800000, 0x40000000, 0x40400000⟩ 0x12), []) ∧
  decode [0x21, 0x4C, 0x9A, 0x99, 0x99, 0x3F, 0x33, 0x33, 0x13, 0x40, 0x9A, 0x99, 0x59, 0x40, 0x02] =
    .ok (.location (.whole ⟨0x3F99999A, 0x40133333, 0x4059999A⟩ 0x02), [])

/-- R122: KIND_OF is the command-id map, exact on all 8 bits, and nothing else. -/
def Obligations.KindOfIsTheCommandIdMap : Prop :=
  ∀ (id : Byte) (k : Kind), kindOf id = some k ↔
    (id, k) ∈ [((0x42 : Byte), Kind.button), (0x43, .color), (0x51, .quaternion), (0x41, .accelerometer),
      (0x47, .gyro), (0x4D, .magnetometer), (0x4C, .location)]

/-- R62, R75, R105: what is no frame is rejected by name: a byte that is not the marker, a marker with nothing after it,
and each of the 249 illegal command ids, whatever follows it. -/
def Obligations.NonFramesAreRejected : Prop :=
  decode [] = .error .noMarker ∧
  (∀ (b : Byte) (rest : List Byte), b ≠ 0x21 → decode (b :: rest) = .error .noMarker) ∧
  decode [0x21] = .error (.rejected (.unknownEvent none)) ∧
  ∀ (id : Byte) (rest : List Byte), id ∉ [(0x42 : Byte), 0x43, 0x51, 0x41, 0x47, 0x4D, 0x4C] →
    decode (0x21 :: id :: rest) = .error (.rejected (.unknownEvent (some id)))

/-- R64: the frame lengths. -/
def Obligations.FrameLengthIsFixedByKind : Prop :=
  ∀ i : Instr, i.isWhole = true →
    (encode i).length =
      (match i.kind with
        | .button => 5
        | .color => 6
        | .quaternion => 19
        | .accelerometer => 15
        | .gyro => 15
        | .magnetometer => 15
        | .location => 15) ∧
      (encode i).length ≤ 19

/-- R71: byte `j` of an F32 field is bits 8j+7..8j of its pattern, and each of the 2^32 patterns is the pattern of the
four bytes it is written as. -/
def Obligations.FloatFieldIsLittleEndian : Prop :=
  (∀ b0 b1 b2 b3 : Byte,
    (f32OfBytes b0 b1 b2 b3).extractLsb' 0 8 = b0 ∧ (f32OfBytes b0 b1 b2 b3).extractLsb' 8 8 = b1 ∧
    (f32OfBytes b0 b1 b2 b3).extractLsb' 16 8 = b2 ∧ (f32OfBytes b0 b1 b2 b3).extractLsb' 24 8 = b3) ∧
  ∀ v : Word32, ∃ b0 b1 b2 b3 : Byte, f32Bytes v = [b0, b1, b2, b3] ∧ f32OfBytes b0 b1 b2 b3 = v

/-! ### The checksum -/

/-- R125: the sum of every byte but the last in a 16-bit accumulator that wraps, complemented, low 8 bits. -/
def Obligations.ChecksumIsComplementOfWrappedSum : Prop :=
  ∀ f : List Byte,
    (checksum f).toNat = (0xFFFF - (f.dropLast.map BitVec.toNat).sum % 2 ^ 16) % 2 ^ 8

/-- R131 (the spec's own inference from R125): the two equivalent forms, the second for a frame of at least one byte. -/
def Obligations.ChecksumResidues : Prop :=
  (∀ f : List Byte, (checksum f).toNat = 0xFF - (f.dropLast.map BitVec.toNat).sum % 256) ∧
  ∀ (summed : List Byte) (cs : Byte),
    cs = checksum (summed ++ [cs]) ↔ ((summed ++ [cs]).map BitVec.toNat).sum % 256 = 0xFF

/-- R132 (the spec's own inference): a change of one summed byte changes the checksum, and an exchange of summed bytes
does not. -/
def Obligations.ChecksumDetectsOneByteChanges : Prop :=
  (∀ (before after : List Byte) (b b' last last' : Byte), b ≠ b' →
    checksum (before ++ b :: after ++ [last]) ≠ checksum (before ++ b' :: after ++ [last'])) ∧
  ∀ (summed summed' : List Byte) (last last' : Byte), summed.Perm summed' →
    checksum (summed ++ [last]) = checksum (summed' ++ [last'])

/-- R130 (the spec's own inference): over any whole frame the accumulator never wraps: it ends at the exact sum, which
is at most 4194. -/
def Obligations.ChecksumAccumulatorNeverWraps : Prop :=
  ∀ i : Instr, i.isWhole = true →
    (sum16 0 (encode i).dropLast).toNat = ((encode i).dropLast.map BitVec.toNat).sum ∧
      ((encode i).dropLast.map BitVec.toNat).sum ≤ 4194

/-! ### The payload decoders as standalone units -/

/-- R140: fewer than 4 bytes, exactly 4, more than 4 (refused: decision D20, assumption log 9). -/
def Obligations.FloatDecoderCases : Prop :=
  (∀ bs : List Byte, bs.length < 4 → decF32 bs = .raises (.invalidFloatEncoding bs.length)) ∧
  (∀ b0 b1 b2 b3 : Byte, ∃ v : Word32, decF32 [b0, b1, b2, b3] = .word v ∧
    v.toNat = b0.toNat + b1.toNat * 2 ^ 8 + b2.toNat * 2 ^ 16 + b3.toNat * 2 ^ 24) ∧
  ∀ bs : List Byte, 4 < bs.length → decF32 bs = .refused (.f32SliceTooLong bs.length)

/-- R142, R143 and the tables of R72, R73: the digit '1' .. '8' names the button, '0' and '1' the state, and no other
byte names one. The pairing of digits and buttons is the spec's decision D8. -/
def Obligations.ButtonBytesMap : Prop :=
  (∀ x : Byte, buttonOf x =
    if 0x31 ≤ x.toNat ∧ x.toNat ≤ 0x38 then
      [Button.button1, .button2, .button3, .button4, .up, .down, .left, .right][x.toNat - 0x31]?
    else none) ∧
  ∀ x : Byte, stateOf x =
    if x.toNat = 0x30 then some .released else if x.toNat = 0x31 then some .pressed else none

/-- R141, with the spec's decision D9: DEC_BUTTON checks the length, then the button byte, then the state byte. -/
def Obligations.ButtonDecoderOrder : Prop :=
  (∀ pl : List Byte, pl.length ≠ 2 → decButton pl = .err (.invalidLength 2 pl.length)) ∧
  (∀ b st : Byte, buttonOf b = none → decButton [b, st] = .err (.buttonDecodeError (.unknownButton b))) ∧
  (∀ (b st : Byte) (bt : Button), buttonOf b = some bt → stateOf st = none →
    decButton [b, st] = .err (.buttonDecodeError (.unknownButtonState st))) ∧
  ∀ (b st : Byte) (bt : Button) (bs : ButtonState), buttonOf b = some bt → stateOf st = some bs →
    decButton [b, st] = .ok (.buttonEvent bt bs)

/-- R144 to R149: each decoder checks its own length, and on a slice of that length returns its fields, an F32 field
being what DEC_F32 returns for its four bytes. -/
def Obligations.FieldDecodersReturnTheirFields : Prop :=
  (∀ pl : List Byte,
    (pl.length ≠ 3 → decColor pl = .err (.invalidLength 3 pl.length)) ∧
    (pl.length ≠ 16 → decQuaternion pl = .err (.invalidLength 16 pl.length)) ∧
    (pl.length ≠ 12 →
      decAccelerometer pl = .err (.invalidLength 12 pl.length) ∧
      decGyro pl = .err (.invalidLength 12 pl.length) ∧
      decMagnetometer pl = .err (.invalidLength 12 pl.length) ∧
      decLocation pl = .err (.invalidLength 12 pl.length))) ∧
  (∀ r g b : Byte, decColor [r, g, b] = .ok (.colorEvent r g b)) ∧
  (∀ px py pz pw : List Byte, ∀ x y z w : Word32,
    decF32 px = .word x → decF32 py = .word y → decF32 pz = .word z → decF32 pw = .word w →
    decQuaternion (px ++ py ++ pz ++ pw) = .ok (.quaternionEvent x y z w)) ∧
  ∀ px py pz : List Byte, ∀ x y z : Word32,
    decF32 px = .word x → decF32 py = .word y → decF32 pz = .word z →
    decAccelerometer (px ++ py ++ pz) = .ok (.accelerometerEvent x y z) ∧
    decGyro (px ++ py ++ pz) = .ok (.gyroEvent x y z) ∧
    decMagnetometer (px ++ py ++ pz) = .ok (.magnetometerEvent x y z) ∧
    decLocation (px ++ py ++ pz) = .ok (.locationEvent x y z)

/-- R123, R124, R126 to R129: DISPATCH checks the length, then the carried last byte against the checksum, then
ENABLED_KINDS, then decodes frame bytes 2 .. 1+L. -/
def Obligations.DispatchChecksInOrder : Prop :=
  ∀ (p : Params) (k : Kind) (f : List Byte),
    (f.length ≠ k.payloadLen + 3 → dispatch p k f = .err (.invalidLength (k.payloadLen + 3) f.length)) ∧
    ∀ (head payload : List Byte) (cs : Byte), f = head ++ payload ++ [cs] → head.length = 2 →
      payload.length = k.payloadLen →
      (cs ≠ checksum f → dispatch p k f = .err (.invalidChecksum cs (checksum f))) ∧
      (cs = checksum f → p.enabledKinds.getLsbD (kindCode k) = false →
        dispatch p k f = .err (.disabledEventKind k)) ∧
      (cs = checksum f → p.enabledKinds.getLsbD (kindCode k) = true → dispatch p k f = decodePayload k payload)

/-! ### The seven frame kinds: each one completes, with this result -/

/-- R150: BUTTON completes on every form: cut off, bad checksum, disabled, illegal button, illegal state, event. -/
def Obligations.ButtonFrameCompletes : Prop :=
  ∀ s : State,
    (∀ body : List Byte, exec (.button (.cut body)) s =
      .next { s with
        cursor := s.cursor + 1
        count := s.count + 1
        received := some (.err (.invalidLength 5 (body.length + 2))) :: s.received }) ∧
    ∀ b st cs : Byte, exec (.button (.whole ⟨b, st⟩ cs)) s =
      .next { s with
        cursor := s.cursor + 1
        count := s.count + 1
        received := some
          (if cs ≠ ~~~ (0x21 + 0x42 + b + st) then .err (.invalidChecksum cs (~~~ (0x21 + 0x42 + b + st)))
           else if s.params.enabledKinds.getLsbD 0 = false then .err (.disabledEventKind .button)
           else match buttonOf b, stateOf st with
            | none, _ => .err (.buttonDecodeError (.unknownButton b))
            | some _, none => .err (.buttonDecodeError (.unknownButtonState st))
            | some bt, some bs => .ok (.buttonEvent bt bs)) :: s.received }

/-- R151: COLOR completes on every form. -/
def Obligations.ColorFrameCompletes : Prop :=
  ∀ s : State,
    (∀ body : List Byte, exec (.color (.cut body)) s =
      .next { s with
        cursor := s.cursor + 1
        count := s.count + 1
        received := some (.err (.invalidLength 6 (body.length + 2))) :: s.received }) ∧
    ∀ r g b cs : Byte, exec (.color (.whole ⟨r, g, b⟩ cs)) s =
      .next { s with
        cursor := s.cursor + 1
        count := s.count + 1
        received := some
          (if cs ≠ ~~~ (0x21 + 0x43 + r + g + b) then
            .err (.invalidChecksum cs (~~~ (0x21 + 0x43 + r + g + b)))
           else if s.params.enabledKinds.getLsbD 1 = false then .err (.disabledEventKind .color)
           else .ok (.colorEvent r g b)) :: s.received }

/-- R152: QUATERNION completes on every form. -/
def Obligations.QuaternionFrameCompletes : Prop :=
  ∀ s : State,
    (∀ body : List Byte, exec (.quaternion (.cut body)) s =
      .next { s with
        cursor := s.cursor + 1
        count := s.count + 1
        received := some (.err (.invalidLength 19 (body.length + 2))) :: s.received }) ∧
    ∀ (x y z w : Word32) (cs calculated : Byte),
      calculated = ~~~ (0x21 + 0x51 + wordByteSum x + wordByteSum y + wordByteSum z + wordByteSum w) →
      exec (.quaternion (.whole ⟨x, y, z, w⟩ cs)) s =
      .next { s with
        cursor := s.cursor + 1
        count := s.count + 1
        received := some
          (if cs ≠ calculated then .err (.invalidChecksum cs calculated)
           else if s.params.enabledKinds.getLsbD 2 = false then .err (.disabledEventKind .quaternion)
           else .ok (.quaternionEvent x y z w)) :: s.received }

/-- R153: ACCELEROMETER completes on every form. -/
def Obligations.AccelerometerFrameCompletes : Prop :=
  ∀ s : State,
    (∀ body : List Byte, exec (.accelerometer (.cut body)) s =
      .next { s with
        cursor := s.cursor + 1
        count := s.count + 1
        received := some (.err (.invalidLength 15 (body.length + 2))) :: s.received }) ∧
    ∀ (x y z : Word32) (cs calculated : Byte),
      calculated = ~~~ (0x21 + 0x41 + wordByteSum x + wordByteSum y + wordByteSum z) →
      exec (.accelerometer (.whole ⟨x, y, z⟩ cs)) s =
      .next { s with
        cursor := s.cursor + 1
        count := s.count + 1
        received := some
          (if cs ≠ calculated then .err (.invalidChecksum cs calculated)
           else if s.params.enabledKinds.getLsbD 3 = false then .err (.disabledEventKind .accelerometer)
           else .ok (.accelerometerEvent x y z)) :: s.received }

/-- R154: GYRO completes on every form. -/
def Obligations.GyroFrameCompletes : Prop :=
  ∀ s : State,
    (∀ body : List Byte, exec (.gyro (.cut body)) s =
      .next { s with
        cursor := s.cursor + 1
        count := s.count + 1
        received := some (.err (.invalidLength 15 (body.length + 2))) :: s.received }) ∧
    ∀ (x y z : Word32) (cs calculated : Byte),
      calculated = ~~~ (0x21 + 0x47 + wordByteSum x + wordByteSum y + wordByteSum z) →
      exec (.gyro (.whole ⟨x, y, z⟩ cs)) s =
      .next { s with
        cursor := s.cursor + 1
        count := s.count + 1
        received := some
          (if cs ≠ calculated then .err (.invalidChecksum cs calculated)
           else if s.params.enabledKinds.getLsbD 4 = false then .err (.disabledEventKind .gyro)
           else .ok (.gyroEvent x y z)) :: s.received }

/-- R155: MAGNETOMETER completes on every form. -/
def Obligations.MagnetometerFrameCompletes : Prop :=
  ∀ s : State,
    (∀ body : List Byte, exec (.magnetometer (.cut body)) s =
      .next { s with
        cursor := s.cursor + 1
        count := s.count + 1
        received := some (.err (.invalidLength 15 (body.length + 2))) :: s.received }) ∧
    ∀ (x y z : Word32) (cs calculated : Byte),
      calculated = ~~~ (0x21 + 0x4D + wordByteSum x + wordByteSum y + wordByteSum z) →
      exec (.magnetometer (.whole ⟨x, y, z⟩ cs)) s =
      .next { s with
        cursor := s.cursor + 1
        count := s.count + 1
        received := some
          (if cs ≠ calculated then .err (.invalidChecksum cs calculated)
           else if s.params.enabledKinds.getLsbD 5 = false then .err (.disabledEventKind .magnetometer)
           else .ok (.magnetometerEvent x y z)) :: s.received }

/-- R156: LOCATION completes on every form. -/
def Obligations.LocationFrameCompletes : Prop :=
  ∀ s : State,
    (∀ body : List Byte, exec (.location (.cut body)) s =
      .next { s with
        cursor := s.cursor + 1
        count := s.count + 1
        received := some (.err (.invalidLength 15 (body.length + 2))) :: s.received }) ∧
    ∀ (lat lon alt : Word32) (cs calculated : Byte),
      calculated = ~~~ (0x21 + 0x4C + wordByteSum lat + wordByteSum lon + wordByteSum alt) →
      exec (.location (.whole ⟨lat, lon, alt⟩ cs)) s =
      .next { s with
        cursor := s.cursor + 1
        count := s.count + 1
        received := some
          (if cs ≠ calculated then .err (.invalidChecksum cs calculated)
           else if s.params.enabledKinds.getLsbD 6 = false then .err (.disabledEventKind .location)
           else .ok (.locationEvent lat lon alt)) :: s.received }

/-- R170, R183: the frame of all seven kinds. Whatever the result, an instruction changes CURSOR and COUNT, each by one,
and returns one value; configuration, ACTIVE, every byte of BUF and the host's operations stay. -/
def Obligations.FramesChangeNothingElse : Prop :=
  ∀ (i : Instr) (s t : State), exec i s = .next t →
    t.cursor = s.cursor + 1 ∧ t.count = s.count + 1 ∧ (∃ r : Result, t.received = some r :: s.received) ∧
    t.params = s.params ∧ t.active = s.active ∧ t.buf = s.buf ∧ (∀ a, t.buf.read a = s.buf.read a) ∧
    t.inputs = s.inputs

/-- R107, R123: the meaning of every well-formed instruction, all seven constructors, is to complete with what DISPATCH
answers for the frame's bytes. -/
def Obligations.InstructionsRefineDispatch : Prop :=
  ∀ (i : Instr) (s : State), i.wellFormed = true →
    exec i s = .next { s with
      cursor := s.cursor + 1
      count := s.count + 1
      received := some (dispatch s.params i.kind (encode i)) :: s.received }

/-! ### Steps -/

/-- NEXT at a live scan runs the decoded instruction: the scanner moves to the first marker at or above CURSOR, the
candidate frame there decodes to `i`, and the step is `exec i`, the host's operation taken off the queue. -/
def Obligations.StepRunsDecodedInstruction : Prop :=
  ∀ (s : State) (ops : List HostOp) (p : Nat) (i : Instr) (rest : List Byte),
    s.inputs = .next :: ops → s.active = true → s.boundReached = false → s.findMarker = some p →
    decode (s.candidateBytes p) = .ok (i, rest) →
    step s = exec i { s with inputs := ops, cursor := p }

/-- R61, R106, R158: where the bytes of a well-formed frame stand at the first marker (a whole one anywhere, a cut-off
one up to the end of BUF), NEXT at a live scan runs exactly that instruction. -/
def Obligations.FrameInBufferIsRun : Prop :=
  ∀ (s : State) (ops : List HostOp) (p : Nat) (i : Instr),
    s.inputs = .next :: ops → s.active = true → s.boundReached = false →
    s.cursor ≤ p → (∀ j, s.cursor ≤ j → j < p → s.buf.read j ≠ 0x21) →
    i.wellFormed = true → s.buf.slice p (p + (encode i).length) = encode i →
    p + (encode i).length ≤ s.params.bufLen → (i.isWhole = true ∨ p + (encode i).length = s.params.bufLen) →
    step s = exec i { s with inputs := ops, cursor := p }

/-- R101 to R109: NEXT is its pseudocode, in every state. -/
def Obligations.NextRefinesItsPseudocode : Prop :=
  ∀ (s : State) (ops : List HostOp), s.inputs = .next :: ops →
    step s = .next
      (if s.active = false then { s with inputs := ops, received := none :: s.received }
       else if s.params.maxResults = .atMost s.count then
        { s with inputs := ops, active := false, received := none :: s.received }
       else
        match (List.range s.params.bufLen).find? (fun i => decide (s.cursor ≤ i ∧ s.buf.read i = 0x21)) with
        | none =>
          { s with inputs := ops, active := false, cursor := s.params.bufLen, received := none :: s.received }
        | some p =>
          { s with
            inputs := ops
            cursor := p + 1
            count := s.count + 1
            received := some
              (if s.params.bufLen ≤ p + 1 then .err (.unknownEvent none)
               else match kindOf (s.buf.read (p + 1)) with
                | none => .err (.unknownEvent (some (s.buf.read (p + 1))))
                | some k =>
                  dispatch s.params k (s.buf.slice p (min (p + 3 + k.payloadLen) s.params.bufLen))) :: s.received })

/-- R172 to R178: each error DECODE_AT yields for the marker at `p` has exactly its one cause. The InvalidLength clause is
R174 through DECODE_AT with the values of R133, which the spec marks as its own inference. -/
def Obligations.EachErrorHasItsOneCause : Prop :=
  ∀ (s : State) (p : Nat), p < s.params.bufLen → s.buf.read p = 0x21 →
    (decodeAt s p = .err (.unknownEvent none) ↔ p + 1 = s.params.bufLen) ∧
    (∀ id : Byte, decodeAt s p = .err (.unknownEvent (some id)) ↔
      p + 1 < s.params.bufLen ∧ id = s.buf.read (p + 1) ∧ id ∉ [(0x42 : Byte), 0x43, 0x51, 0x41, 0x47, 0x4D, 0x4C]) ∧
    (∀ expected actual : Nat, decodeAt s p = .err (.invalidLength expected actual) ↔
      ∃ k : Kind, p + 1 < s.params.bufLen ∧ s.buf.read (p + 1) = k.commandId ∧ expected = k.payloadLen + 3 ∧
        actual = s.params.bufLen - p ∧ actual < expected) ∧
    ∀ k : Kind, s.buf.read (p + 1) = k.commandId → p + (k.payloadLen + 3) ≤ s.params.bufLen →
      (∀ received calculated : Byte, decodeAt s p = .err (.invalidChecksum received calculated) ↔
        received = s.buf.read (p + k.payloadLen + 2) ∧
          calculated = checksum (s.buf.slice p (p + (k.payloadLen + 3))) ∧ received ≠ calculated) ∧
      (∀ k' : Kind, decodeAt s p = .err (.disabledEventKind k') ↔
        k' = k ∧ s.buf.read (p + k.payloadLen + 2) = checksum (s.buf.slice p (p + (k.payloadLen + 3))) ∧
          s.params.enabledKinds.getLsbD (kindCode k) = false) ∧
      (∀ b : Byte, decodeAt s p = .err (.buttonDecodeError (.unknownButton b)) ↔
        k = .button ∧ s.buf.read (p + 4) = checksum (s.buf.slice p (p + 5)) ∧
          s.params.enabledKinds.getLsbD 0 = true ∧ b = s.buf.read (p + 2) ∧ ¬ (0x31 ≤ b.toNat ∧ b.toNat ≤ 0x38)) ∧
      ∀ b : Byte, decodeAt s p = .err (.buttonDecodeError (.unknownButtonState b)) ↔
        k = .button ∧ s.buf.read (p + 4) = checksum (s.buf.slice p (p + 5)) ∧
          s.params.enabledKinds.getLsbD 0 = true ∧
          (0x31 ≤ (s.buf.read (p + 2)).toNat ∧ (s.buf.read (p + 2)).toNat ≤ 0x38) ∧
          b = s.buf.read (p + 3) ∧ b ≠ 0x30 ∧ b ≠ 0x31

/-- R100, with the spec's decision D2: START, from any state, gives ACTIVE = 1, CURSOR = 0, COUNT = 0 and changes
nothing else. -/
def Obligations.StartBeginsAScan : Prop :=
  ∀ (s : State) (ops : List HostOp), s.inputs = .start :: ops →
    step s = .next { s with active := true, cursor := 0, count := 0, inputs := ops }

/-- R200, R26, with the spec's decision D13: a block reset, whatever the host issues after it, gives ACTIVE = 0,
CURSOR = 0, COUNT = 0 and changes neither configuration nor BUF. Until the first START the three stay so, whatever
else the host does, and each NEXT returns None. -/
def Obligations.BlockResetStopsTheScan : Prop :=
  ∀ (s : State) (ops : List HostOp), s.inputs = .reset :: ops →
    step s = .next { s with active := false, cursor := 0, count := 0, inputs := ops } ∧
    ∀ (n : Nat) (u : State), (∀ op ∈ ops.take n, op ≠ .start) →
      runSteps n { s with active := false, cursor := 0, count := 0, inputs := ops } = .next u →
      u.active = false ∧ u.cursor = 0 ∧ u.count = 0 ∧ u.params = s.params ∧
        u.received = List.replicate ((ops.take n).count .next) none ++ s.received

/-- R26: the state after reset. The configuration there is the model's (assumption log 2), and so is the unfilled
buffer (log 3). -/
def Obligations.ResetValues : Prop :=
  State.reset.active = false ∧ State.reset.cursor = 0 ∧ State.reset.count = 0 ∧
    State.reset.params = ⟨32, .unbounded, 0b1111111⟩ ∧ ∀ a, State.reset.buf.read a = 0

/-- R109, with the spec's decision D11: NEXT with ACTIVE = 0 returns None and writes no state. -/
def Obligations.NextWithoutScanReturnsNone : Prop :=
  ∀ (s : State) (ops : List HostOp), s.inputs = .next :: ops → s.active = false →
    step s = .next { s with inputs := ops, received := none :: s.received }

/-- R108, with the spec's decision D4: at the bound NEXT ends the scan, searching nothing and leaving CURSOR, whatever
BUF holds. -/
def Obligations.NextAtBoundEndsScan : Prop :=
  ∀ (s : State) (ops : List HostOp), s.inputs = .next :: ops → s.active = true →
    s.params.maxResults = .atMost s.count →
    step s = .next { s with inputs := ops, active := false, received := none :: s.received }

/-- R103, with the spec's decision D12 for the final CURSOR: no marker at CURSOR .. BUF_LEN-1. -/
def Obligations.NextWithoutMarkerEndsScan : Prop :=
  ∀ (s : State) (ops : List HostOp), s.inputs = .next :: ops → s.active = true → s.boundReached = false →
    (∀ j, s.cursor ≤ j → j < s.params.bufLen → s.buf.read j ≠ 0x21) →
    step s = .next { s with
      inputs := ops
      active := false
      cursor := s.params.bufLen
      received := none :: s.received }

/-- R102, R104: NEXT at a live scan passes over everything below the first marker and leaves CURSOR one past it,
whatever result the frame there gives. -/
def Obligations.NextPassesOverNoise : Prop :=
  ∀ (s : State) (ops : List HostOp) (p : Nat), s.inputs = .next :: ops → s.active = true →
    s.boundReached = false → s.cursor ≤ p → p < s.params.bufLen → s.buf.read p = 0x21 →
    (∀ j, s.cursor ≤ j → j < p → s.buf.read j ≠ 0x21) →
    ∃ r : Result, step s = .next { s with
      inputs := ops
      cursor := p + 1
      count := s.count + 1
      received := some r :: s.received }

/-- R105, R173: a command id that is none of the seven. -/
def Obligations.UnknownCommandIdIsReported : Prop :=
  ∀ (s : State) (ops : List HostOp) (p : Nat), s.inputs = .next :: ops → s.active = true →
    s.boundReached = false → s.cursor ≤ p → p + 1 < s.params.bufLen → s.buf.read p = 0x21 →
    (∀ j, s.cursor ≤ j → j < p → s.buf.read j ≠ 0x21) →
    s.buf.read (p + 1) ∉ [(0x42 : Byte), 0x43, 0x51, 0x41, 0x47, 0x4D, 0x4C] →
    step s = .next { s with
      inputs := ops
      cursor := p + 1
      count := s.count + 1
      received := some (.err (.unknownEvent (some (s.buf.read (p + 1))))) :: s.received }

/-- R106, R124, R205: a frame of a known kind that the end of BUF cuts off. -/
def Obligations.CutOffFrameReportsItsLength : Prop :=
  ∀ (s : State) (ops : List HostOp) (p : Nat) (k : Kind), s.inputs = .next :: ops → s.active = true →
    s.boundReached = false → s.cursor ≤ p → p + 1 < s.params.bufLen → s.buf.read p = 0x21 →
    (∀ j, s.cursor ≤ j → j < p → s.buf.read j ≠ 0x21) →
    s.buf.read (p + 1) = k.commandId → s.params.bufLen < p + (k.payloadLen + 3) →
    step s = .next { s with
      inputs := ops
      cursor := p + 1
      count := s.count + 1
      received := some (.err (.invalidLength (k.payloadLen + 3) (s.params.bufLen - p))) :: s.received }

/-- R10, R190: with no operation issued the block holds its state. -/
def Obligations.IdleBlockHoldsItsState : Prop :=
  ∀ s : State, s.inputs = [] → step s = .next s

/-! ### The host and BUF -/

/-- R117: while ACTIVE = 0 the host writes any byte of BUF; the byte reads back and every other one is unchanged. The
premise on BUF is the invariant of `StepKeepsBufferWellFormed`. -/
def Obligations.HostFillsBufferBetweenScans : Prop :=
  ∀ (s : State) (ops : List HostOp) (i : Nat) (v : Byte), s.inputs = .write i v :: ops → s.active = false →
    i < s.params.bufLen → s.buf.wf = true →
    ∃ m : Memory, step s = .next { s with inputs := ops, buf := m } ∧ m.read i = v ∧
      ∀ j, j ≠ i → m.read j = s.buf.read j

/-- R47, R202, decision D16: a host write of BUF while ACTIVE = 1 is refused. -/
def Obligations.WriteDuringScanIsRefused : Prop :=
  ∀ (s : State) (ops : List HostOp) (i : Nat) (v : Byte), s.inputs = .write i v :: ops → s.active = true →
    i < s.params.bufLen → step s = .refused (.bufferWrittenDuringScan i)

/-- R43, R47, R191: nothing stops the machine but a host write. That a write during a scan is refused is R47 (decision
D16). That a write at or beyond BUF_LEN faults, and that this is tested before ACTIVE, is the model's own choice
(assumption log 8): no rule says what such a write does. -/
def Obligations.OnlyHostWritesStop : Prop :=
  ∀ s : State,
    (∀ r : Fault, step s = .fault r ↔
      ∃ i v ops, s.inputs = .write i v :: ops ∧ s.params.bufLen ≤ i ∧ r = .noSuchOffset i) ∧
    ∀ r : Refusal, step s = .refused r ↔
      ∃ i v ops, s.inputs = .write i v :: ops ∧ i < s.params.bufLen ∧ s.active = true ∧
        r = .bufferWrittenDuringScan i

/-- R113, R117, R187: a host that issues START, NEXT and reset only is never stopped, from any state and whatever BUF
holds. -/
def Obligations.QuietHostNeverStops : Prop :=
  ∀ (n : Nat) (s : State), s.quietHost = true → ∃ t : State, runSteps n s = .next t

/-- R42: no step but a host write changes any byte of BUF. -/
def Obligations.BlockNeverWritesBuffer : Prop :=
  ∀ s t : State, step s = .next t → (∀ op ∈ s.inputs.head?, op.isWrite = false) →
    t.buf = s.buf ∧ ∀ a, t.buf.read a = s.buf.read a

/-- R11: no operation writes BUF_LEN, MAX_RESULTS or ENABLED_KINDS. -/
def Obligations.ConfigurationNeverChanges : Prop :=
  ∀ s t : State, step s = .next t → t.params = s.params

/-- R27: what NEXT has returned stays as it was, whatever happens to BUF later, and a step returns at most one value. -/
def Obligations.ReturnedValuesPersist : Prop :=
  ∀ s t : State, step s = .next t → t.received = s.received ∨ ∃ v, t.received = v :: s.received

/-! ### Invariants -/

/-- R40: BUF stays in canonical form, below BUF_LEN. -/
def Obligations.StepKeepsBufferWellFormed : Prop :=
  ∀ s t : State, s.bufferWf = true → step s = .next t → t.bufferWf = true

/-- R28 (a), (c): CURSOR never exceeds BUF_LEN and COUNT never exceeds a bound. -/
def Obligations.StepKeepsCursorAndCountInRange : Prop :=
  ∀ s t : State, s.inRange → step s = .next t → t.inRange

/-- R28 (b), (d): a live scan has yielded exactly the results of the markers below CURSOR, in their order, and COUNT is
their number. -/
def Obligations.StepKeepsLiveScanRecord : Prop :=
  ∀ s t : State, s.liveScanRecorded → step s = .next t → t.liveScanRecorded

/-- The invariants hold at reset. -/
def Obligations.ResetMeetsInvariants : Prop :=
  State.reset.bufferWf = true ∧ State.reset.inRange ∧ State.reset.liveScanRecorded ∧ State.reset.scanRecorded

/-- R14, R111, R119: no step but START and reset moves CURSOR down, and a NEXT that returns a result moves it up. -/
def Obligations.CursorNeverRewinds : Prop :=
  ∀ s t : State, s.cursor ≤ s.params.bufLen → step s = .next t →
    (t.cursor < s.cursor → s.inputs.head? = some .start ∨ s.inputs.head? = some .reset) ∧
    ∀ r : Result, t.received = some r :: s.received → s.cursor < t.cursor

/-- R133 (the spec's own inference): NEXT never returns InvalidFloatEncoding, and a length error of NEXT is a frame cut
off with 2 .. expected-1 bytes left. -/
def Obligations.ErrorsReachableThroughNext : Prop :=
  ∀ (s t : State) (e : Error), step s = .next t → t.received = some (.err e) :: s.received →
    (∀ n, e ≠ .invalidFloatEncoding n) ∧
    ∀ expected actual, e = .invalidLength expected actual →
      2 ≤ actual ∧ actual < expected ∧ expected ∈ [5, 6, 15, 19]

/-! ### Whole scans -/

/-- R43, R115 (the spec's own inference): NEXT looks at no byte of BUF but the ones R115 lists. Two machines that differ
only in other bytes, below or beyond BUF_LEN, take the same step. -/
def Obligations.NextReadsOnlyListedBytes : Prop :=
  ∀ (s : State) (m : Memory) (ops : List HostOp), s.inputs = .next :: ops →
    (s.active = true → s.boundReached = false → ∀ j, s.cursor ≤ j →
      j < (match s.findMarker with
        | none => s.params.bufLen
        | some p => s.candidateEnd p) → m.read j = s.buf.read j) →
    ∃ t : State, step s = .next t ∧ step { s with buf := m } = .next { t with buf := m }

/-- R20, R114: what a scan returns depends on the bytes of BUF and the parameters alone, not on what the instance did
before START or on another instance. -/
def Obligations.ScanDependsOnBufferAlone : Prop :=
  ∀ (s s' : State) (ops ops' : List HostOp) (n : Nat), s.inputs = scanOps n ++ ops → s'.inputs = scanOps n ++ ops' →
    s.params = s'.params → (∀ j, j < s.params.bufLen → s.buf.read j = s'.buf.read j) →
    ∃ (t t' : State) (vs : List (Option Result)), runSteps (n + 1) s = .next t ∧ runSteps (n + 1) s' = .next t' ∧
      t.received = vs ++ s.received ∧ t'.received = vs ++ s'.received ∧
      t.active = t'.active ∧ t.cursor = t'.cursor ∧ t.count = t'.count

/-- R110, R112, R116 (the spec's own inference): with no bound, or a bound above the number of markers, a START, a NEXT
for each byte 0x21 of BUF and one more NEXT return exactly DECODE_AT of those offsets in increasing order and then None,
and end the scan at (0, BUF_LEN, number of markers). -/
def Obligations.ScanYieldsOneResultPerMarker : Prop :=
  ∀ (s : State) (ops : List HostOp) (marks : List Nat),
    marks = (List.range s.params.bufLen).filter (fun i => decide (s.buf.read i = 0x21)) →
    (∀ n, s.params.maxResults = .atMost n → marks.length < n) →
    s.inputs = scanOps (marks.length + 1) ++ ops →
    runSteps (marks.length + 2) s = .next { s with
      active := false
      cursor := s.params.bufLen
      count := marks.length
      inputs := ops
      received := none :: ((marks.map (fun p => some (decodeAt s p))).reverse ++ s.received) }

/-- R108, R110, R116, R206 (the spec's own inference): with a bound no larger than the number of markers, the scan
returns the first MAX_RESULTS of those results and then None, and CURSOR stays one past the last marker it took, or at 0
when it took none. -/
def Obligations.BoundedScanStopsAtBound : Prop :=
  ∀ (s : State) (ops : List HostOp) (marks : List Nat) (n : Nat),
    marks = (List.range s.params.bufLen).filter (fun i => decide (s.buf.read i = 0x21)) →
    s.params.maxResults = .atMost n → n ≤ marks.length →
    s.inputs = scanOps (n + 1) ++ ops →
    runSteps (n + 2) s = .next { s with
      active := false
      cursor := (((marks.take n).getLast?).map (· + 1)).getD 0
      count := n
      inputs := ops
      received := none :: (((marks.take n).map (fun p => some (decodeAt s p))).reverse ++ s.received) }

/-- R111 (the spec's own inference): every scan ends: after START, BUF_LEN + 1 NEXT operations leave ACTIVE = 0. -/
def Obligations.EveryScanEnds : Prop :=
  ∀ (s : State) (ops : List HostOp), s.inputs = scanOps (s.params.bufLen + 1) ++ ops →
    ∃ t : State, runSteps (s.params.bufLen + 2) s = .next t ∧ t.active = false ∧ t.inputs = ops

/-! ### The catalogue of errors and the packed record -/

/-- R171, R180: the codes and the categories. The codes are the spec's decision D7. -/
def Obligations.ErrorCatalogue : Prop :=
  (∀ id, errorCode (.unknownEvent id) = 1 ∧ errorCategory (.unknownEvent id) = .structural) ∧
  (∀ k, errorCode (.disabledEventKind k) = 2 ∧ errorCategory (.disabledEventKind k) = .configuration) ∧
  (∀ b, errorCode (.buttonDecodeError (.unknownButton b)) = 3 ∧
    errorCode (.buttonDecodeError (.unknownButtonState b)) = 4) ∧
  (∀ e, errorCategory (.buttonDecodeError e) = .semantic) ∧
  (∀ e a, errorCode (.invalidLength e a) = 5 ∧ errorCategory (.invalidLength e a) = .structural) ∧
  (∀ r c, errorCode (.invalidChecksum r c) = 6 ∧ errorCategory (.invalidChecksum r c) = .structural) ∧
  ∀ n, errorCode (.invalidFloatEncoding n) = 7 ∧ errorCategory (.invalidFloatEncoding n) = .semantic

/-- R25, decision D18: every event packs, every error packs whose lengths are below 2^16, and where each bit of the record
lies: `d` is the `data` field, bits 167..8. -/
def Obligations.PackedRecordLayout : Prop :=
  (∀ e : Event, ∃ v, packResult (.ok e) = some v) ∧
  (∀ e : Error, (∀ expected actual, e = .invalidLength expected actual → expected < 2 ^ 16 ∧ actual < 2 ^ 16) →
    (∀ n, e = .invalidFloatEncoding n → n < 2 ^ 16) → ∃ v, packResult (.err e) = some v) ∧
  (∀ k : Kind, [Kind.button, .color, .quaternion, .accelerometer, .gyro, .magnetometer, .location][kindCode k]? =
    some k) ∧
  ∀ (r : Result) (v : BitVec 168) (d : BitVec 160), packResult r = some v → d = v.extractLsb' 8 160 →
    v.getLsbD 7 = false ∧
    match r with
    | .ok e =>
      v.getLsbD 0 = false ∧ v.extractLsb' 4 3 = 0 ∧
      match e with
      | .buttonEvent b st =>
        v.extractLsb' 1 3 = 0 ∧
          [Button.button1, .button2, .button3, .button4, .up, .down, .left, .right][(d.extractLsb' 0 3).toNat]? =
            some b ∧
          [ButtonState.released, .pressed][(d.extractLsb' 8 1).toNat]? = some st ∧
          d.extractLsb' 3 5 = 0 ∧ d.extractLsb' 9 151 = 0
      | .colorEvent red green blue =>
        v.extractLsb' 1 3 = 1 ∧ d.extractLsb' 0 8 = red ∧ d.extractLsb' 8 8 = green ∧ d.extractLsb' 16 8 = blue ∧
          d.extractLsb' 24 136 = 0
      | .quaternionEvent x y z w =>
        v.extractLsb' 1 3 = 2 ∧ d.extractLsb' 0 32 = x ∧ d.extractLsb' 32 32 = y ∧ d.extractLsb' 64 32 = z ∧
          d.extractLsb' 96 32 = w ∧ d.extractLsb' 128 32 = 0
      | .accelerometerEvent x y z =>
        v.extractLsb' 1 3 = 3 ∧ d.extractLsb' 0 32 = x ∧ d.extractLsb' 32 32 = y ∧ d.extractLsb' 64 32 = z ∧
          d.extractLsb' 96 64 = 0
      | .gyroEvent x y z =>
        v.extractLsb' 1 3 = 4 ∧ d.extractLsb' 0 32 = x ∧ d.extractLsb' 32 32 = y ∧ d.extractLsb' 64 32 = z ∧
          d.extractLsb' 96 64 = 0
      | .magnetometerEvent x y z =>
        v.extractLsb' 1 3 = 5 ∧ d.extractLsb' 0 32 = x ∧ d.extractLsb' 32 32 = y ∧ d.extractLsb' 64 32 = z ∧
          d.extractLsb' 96 64 = 0
      | .locationEvent lat lon alt =>
        v.extractLsb' 1 3 = 6 ∧ d.extractLsb' 0 32 = lat ∧ d.extractLsb' 32 32 = lon ∧ d.extractLsb' 64 32 = alt ∧
          d.extractLsb' 96 64 = 0
    | .err e =>
      v.getLsbD 0 = true ∧ d.extractLsb' 33 127 = 0 ∧
      ∀ kind err arg0 arg1 : Nat, ∀ present : Bool,
        (kind, err, arg0, arg1, present) =
          (match e with
            | .unknownEvent none => (0, 1, 0, 0, false)
            | .unknownEvent (some id) => (0, 1, id.toNat, 0, true)
            | .disabledEventKind k => (kindCode k, 2, 0, 0, false)
            | .buttonDecodeError (.unknownButton b) => (0, 3, b.toNat, 0, false)
            | .buttonDecodeError (.unknownButtonState b) => (0, 4, b.toNat, 0, false)
            | .invalidLength expected actual => (0, 5, expected, actual, false)
            | .invalidChecksum received calculated => (0, 6, received.toNat, calculated.toNat, false)
            | .invalidFloatEncoding n => (0, 7, n, 0, false)) →
        (v.extractLsb' 1 3).toNat = kind ∧ (v.extractLsb' 4 3).toNat = err ∧ (d.extractLsb' 0 16).toNat = arg0 ∧
          (d.extractLsb' 16 16).toNat = arg1 ∧ d.getLsbD 32 = present

/-- R25, decision D18: no two results share a packed record. -/
def Obligations.PackedResultIsInjective : Prop :=
  ∀ (r r' : Result) (v : BitVec 168), packResult r = some v → packResult r' = some v → r = r'
end

