-- ==== Sys2Proof/Laws/Decode.lean ====
section
/-! SUPPORT. The parts an encoding is made of: an F32 field, the operands of each kind, a candidate's body. -/

namespace Sys2Proof

/-! ### F32 fields -/

theorem f32OfBytes_bytes (v : Word32) :
    f32OfBytes (v.extractLsb' 0 8) (v.extractLsb' 8 8) (v.extractLsb' 16 8) (v.extractLsb' 24 8) = v := by
  apply BitVec.eq_of_getElem_eq
  intro i hi
  simp only [f32OfBytes, BitVec.getElem_or, BitVec.getElem_setWidth, BitVec.getElem_shiftLeft,
    BitVec.getLsbD_extractLsb']
  interval_cases i <;> simp

theorem f32Bytes_ofBytes (b0 b1 b2 b3 : Byte) : f32Bytes (f32OfBytes b0 b1 b2 b3) = [b0, b1, b2, b3] := by
  simp only [f32Bytes, List.cons.injEq, and_true]
  refine ⟨?_, ?_, ?_, ?_⟩ <;>
  · apply BitVec.eq_of_getElem_eq
    intro i hi
    simp only [f32OfBytes, BitVec.getElem_extractLsb', BitVec.getLsbD_or, BitVec.getLsbD_setWidth,
      BitVec.getLsbD_shiftLeft]
    interval_cases i <;> simp [BitVec.getLsbD_eq_getElem, BitVec.getLsbD_of_ge]

@[simp] theorem length_f32Bytes (v : Word32) : (f32Bytes v).length = 4 := rfl

/-! ### Operands of each kind -/

@[simp] theorem ButtonOperands.length_toBytes (o : ButtonOperands) : o.toBytes.length = 2 := rfl
@[simp] theorem ColorOperands.length_toBytes (o : ColorOperands) : o.toBytes.length = 3 := rfl
@[simp] theorem QuaternionOperands.length_toBytes (o : QuaternionOperands) : o.toBytes.length = 16 := rfl
@[simp] theorem VectorOperands.length_toBytes (o : VectorOperands) : o.toBytes.length = 12 := rfl
@[simp] theorem LocationOperands.length_toBytes (o : LocationOperands) : o.toBytes.length = 12 := rfl

@[simp] theorem ButtonOperands.ofBytes_toBytes (o : ButtonOperands) : ButtonOperands.ofBytes o.toBytes = o := rfl
@[simp] theorem ColorOperands.ofBytes_toBytes (o : ColorOperands) : ColorOperands.ofBytes o.toBytes = o := rfl

@[simp] theorem QuaternionOperands.ofBytes_toBytes (o : QuaternionOperands) :
    QuaternionOperands.ofBytes o.toBytes = o := by
  obtain ⟨x, y, z, w⟩ := o
  simp [QuaternionOperands.ofBytes, QuaternionOperands.toBytes, f32At, f32Bytes, byteAt, f32OfBytes_bytes]

@[simp] theorem VectorOperands.ofBytes_toBytes (o : VectorOperands) : VectorOperands.ofBytes o.toBytes = o := by
  obtain ⟨x, y, z⟩ := o
  simp [VectorOperands.ofBytes, VectorOperands.toBytes, f32At, f32Bytes, byteAt, f32OfBytes_bytes]

@[simp] theorem LocationOperands.ofBytes_toBytes (o : LocationOperands) :
    LocationOperands.ofBytes o.toBytes = o := by
  obtain ⟨x, y, z⟩ := o
  simp [LocationOperands.ofBytes, LocationOperands.toBytes, f32At, f32Bytes, byteAt, f32OfBytes_bytes]

theorem ButtonOperands.toBytes_ofBytes {pl : List Byte} (h : pl.length = 2) :
    (ButtonOperands.ofBytes pl).toBytes = pl := by
  match pl, h with
  | [_, _], _ => rfl

theorem ColorOperands.toBytes_ofBytes {pl : List Byte} (h : pl.length = 3) :
    (ColorOperands.ofBytes pl).toBytes = pl := by
  match pl, h with
  | [_, _, _], _ => rfl

theorem QuaternionOperands.toBytes_ofBytes {pl : List Byte} (h : pl.length = 16) :
    (QuaternionOperands.ofBytes pl).toBytes = pl := by
  match pl, h with
  | [_, _, _, _, _, _, _, _, _, _, _, _, _, _, _, _], _ =>
    simp [QuaternionOperands.ofBytes, QuaternionOperands.toBytes, f32At, f32Bytes_ofBytes, byteAt]

theorem VectorOperands.toBytes_ofBytes {pl : List Byte} (h : pl.length = 12) :
    (VectorOperands.ofBytes pl).toBytes = pl := by
  match pl, h with
  | [_, _, _, _, _, _, _, _, _, _, _, _], _ =>
    simp [VectorOperands.ofBytes, VectorOperands.toBytes, f32At, f32Bytes_ofBytes, byteAt]

theorem LocationOperands.toBytes_ofBytes {pl : List Byte} (h : pl.length = 12) :
    (LocationOperands.ofBytes pl).toBytes = pl := by
  match pl, h with
  | [_, _, _, _, _, _, _, _, _, _, _, _], _ =>
    simp [LocationOperands.ofBytes, LocationOperands.toBytes, f32At, f32Bytes_ofBytes, byteAt]

/-! ### A candidate's body -/

/-- A body that holds the checksum byte is a whole candidate, whatever follows. -/
theorem Candidate.ofBody_whole {α : Type} (fields : List Byte → α) {len : Nat} {pl : List Byte}
    (h : pl.length = len) (cs : Byte) (rest : List Byte) :
    Candidate.ofBody len fields (pl ++ cs :: rest) = .whole (fields pl) cs := by
  subst h
  simp [Candidate.ofBody]

/-- A body too short for the checksum byte is a cut-off candidate. -/
theorem Candidate.ofBody_cut {α : Type} (fields : List Byte → α) {len : Nat} {body : List Byte}
    (h : body.length ≤ len) : Candidate.ofBody len fields body = .cut body := by
  simp [Candidate.ofBody, List.drop_eq_nil_of_le h]

/-- Every body is one or the other. -/
theorem body_cases (len : Nat) (body : List Byte) :
    body.length ≤ len ∨ ∃ pl cs rest, body = pl ++ cs :: rest ∧ pl.length = len := by
  by_cases h : body.length ≤ len
  · exact .inl h
  · refine .inr ⟨body.take len, body[len]'(by omega), body.drop (len + 1), ?_, ?_⟩
    · rw [← List.drop_eq_getElem_cons, List.take_append_drop]
    · simp; omega

theorem kindOf_commandId (k : Kind) : kindOf k.commandId = some k := by
  cases k <;> rfl

theorem kindOf_eq_some {id : Byte} {k : Kind} (h : kindOf id = some k) : id = k.commandId := by
  unfold kindOf at h
  split at h; · cases h; assumption
  split at h; · cases h; assumption
  split at h; · cases h; assumption
  split at h; · cases h; assumption
  split at h; · cases h; assumption
  split at h; · cases h; assumption
  split at h
  · cases h; assumption
  · cases h

end Sys2Proof
end

