-- ==== Sys2Proof/Laws/Ops.lean ====
section
/-! SUPPORT. What the operations over BUF do, said once each: read after write, the canonical form, slices, the marker
search. -/

namespace Sys2Proof.Machine

/-! ### The canonical form -/

@[simp] theorem Memory.wf_nil : Memory.wf [] = true := rfl

theorem Memory.wf_cons (c : Host.Cell) (m : Memory) :
    Memory.wf (c :: m) = true ↔ c.2 ≠ unfilledByte ∧ (∀ d ∈ m, c.1 < d.1) ∧ Memory.wf m = true := by
  obtain ⟨a, v⟩ := c
  simp [Memory.wf, and_assoc]

/-- Every cell after a write is the written one or an old one. -/
theorem Memory.mem_write {m : Memory} {i : Nat} {v : Byte} {c : Host.Cell} (h : c ∈ m.write i v) :
    (c = (i, v) ∧ v ≠ unfilledByte) ∨ c ∈ m := by
  induction m with
  | nil =>
    simp only [Memory.write] at h
    split at h <;> simp_all
  | cons d m ih =>
    obtain ⟨a, w⟩ := d
    simp only [Memory.write] at h
    split at h
    · split at h <;> simp_all
    · split at h
      · split at h
        · exact .inr (by simp [h])
        · rcases List.mem_cons.1 h with h | h
          · exact .inl ⟨h, by assumption⟩
          · exact .inr (by simp [h])
      · rcases List.mem_cons.1 h with h | h
        · exact .inr (by simp [h])
        · rcases ih h with h | h
          · exact .inl h
          · exact .inr (by simp [h])

/-- A host write keeps the canonical form. -/
theorem Memory.wf_write {m : Memory} (h : m.wf = true) (i : Nat) (v : Byte) : (m.write i v).wf = true := by
  induction m with
  | nil =>
    simp only [Memory.write]
    split
    · rfl
    · exact (wf_cons _ _).2 ⟨by assumption, by simp, rfl⟩
  | cons d m ih =>
    obtain ⟨a, w⟩ := d
    obtain ⟨hw, hlt, hm⟩ := (wf_cons _ _).1 h
    simp only [Memory.write]
    split
    · next hia =>
      split
      · exact h
      · refine (wf_cons _ _).2 ⟨by assumption, ?_, h⟩
        intro d hd
        rcases List.mem_cons.1 hd with rfl | hd
        · exact hia
        · exact Nat.lt_trans hia (hlt d hd)
    · split
      · next hia =>
        subst hia
        split
        · exact hm
        · exact (wf_cons _ _).2 ⟨by assumption, hlt, hm⟩
      · refine (wf_cons _ _).2 ⟨hw, ?_, ih hm⟩
        intro d hd
        rcases Memory.mem_write hd with ⟨rfl, -⟩ | hd
        · show a < i
          omega
        · exact hlt d hd

/-- A run of host writes keeps the canonical form. -/
theorem Memory.wf_writeAll {m : Memory} (h : m.wf = true) (i : Nat) (vs : List Byte) :
    (m.writeAll i vs).wf = true := by
  induction vs generalizing m i with
  | nil => exact h
  | cons v vs ih => exact ih (Memory.wf_write h i v) (i + 1)

/-! ### Reading -/

/-- An offset below every listed one reads as unlisted. -/
theorem Memory.read_of_forall_ne {m : Memory} {i : Nat} (h : ∀ c ∈ m, c.1 ≠ i) : m.read i = unfilledByte := by
  induction m with
  | nil => rfl
  | cons d m ih =>
    obtain ⟨a, w⟩ := d
    have ha : a ≠ i := h (a, w) (by simp)
    simp only [Memory.read, if_neg ha]
    exact ih fun c hc => h c (by simp [hc])

/-- A byte reads back as it was written, and every other offset reads as before. -/
theorem Memory.read_write {m : Memory} (h : m.wf = true) (i j : Nat) (v : Byte) :
    (m.write i v).read j = if j = i then v else m.read j := by
  induction m with
  | nil =>
    simp only [Memory.write]
    split
    · next hv => simp [Memory.read, hv]
    · by_cases hj : j = i
      · simp [Memory.read, hj]
      · simp [Memory.read, hj, Ne.symm hj]
  | cons d m ih =>
    obtain ⟨a, w⟩ := d
    obtain ⟨hw, hlt, hm⟩ := (wf_cons _ _).1 h
    have hskip : ∀ k, k ≤ a → Memory.read m k = unfilledByte := fun k hk =>
      Memory.read_of_forall_ne fun c hc => by have := hlt c hc; simp only at this; omega
    simp only [Memory.write]
    split
    · next hia =>
      split
      · next hv =>
        split
        · next hj =>
          subst hj
          simp [Memory.read, show a ≠ j by omega, hskip j (by omega), hv]
        · rfl
      · by_cases hj : j = i
        · simp [Memory.read, hj]
        · simp [Memory.read, hj, Ne.symm hj]
    · split
      · next hia =>
        subst hia
        by_cases hj : j = i
        · subst hj
          split
          · next hv => simp [hskip j (Nat.le_refl _), hv]
          · simp [Memory.read]
        · split <;> simp [Memory.read, Ne.symm hj]
      · next hia hne =>
        simp only [Memory.read, ih hm]
        by_cases ha : a = j
        · simp [ha, show j ≠ i by omega]
        · simp [ha]

/-! ### Slices and the marker search -/

@[simp] theorem Memory.length_slice (m : Memory) (a b : Nat) : (m.slice a b).length = b - a := by
  simp [Memory.slice]

/-- A slice begins with the byte at its lower end. -/
theorem Memory.slice_cons (m : Memory) {a b : Nat} (h : a < b) : m.slice a b = m.read a :: m.slice (a + 1) b := by
  obtain ⟨n, rfl⟩ : ∃ n, b = a + 1 + n := ⟨b - (a + 1), by omega⟩
  have h1 : a + 1 + n - a = n + 1 := by omega
  have h2 : a + 1 + n - (a + 1) = n := by omega
  simp [Memory.slice, h1, h2, List.range'_succ]

/-- Slices of two buffers that agree on the range are equal. -/
theorem Memory.slice_congr {m m' : Memory} {a b : Nat} (h : ∀ i, a ≤ i → i < b → m.read i = m'.read i) :
    m.slice a b = m'.slice a b := by
  refine List.map_congr_left fun i hi => ?_
  simp only [List.mem_range'_1] at hi
  exact h i hi.1 (by omega)

/-- The search finds the first marker of its range. -/
theorem Memory.findFrom_eq_some {m : Memory} {n i p : Nat} :
    m.findFrom n i = some p ↔
      i ≤ p ∧ p < i + n ∧ m.read p = marker ∧ ∀ j, i ≤ j → j < p → m.read j ≠ marker := by
  induction n generalizing i with
  | zero =>
    simp only [Memory.findFrom]
    constructor
    · intro h; cases h
    · rintro ⟨h1, h2, -⟩; omega
  | succ n ih =>
    simp only [Memory.findFrom]
    split
    · next h =>
      constructor
      · rintro ⟨⟩
        exact ⟨Nat.le_refl _, by omega, h, fun j h1 h2 => by omega⟩
      · rintro ⟨h1, h2, h3, h4⟩
        by_cases hp : i = p
        · rw [hp]
        · exact absurd h (h4 i (Nat.le_refl _) (by omega))
    · next h =>
      rw [ih]
      constructor
      · rintro ⟨h1, h2, h3, h4⟩
        refine ⟨by omega, by omega, h3, fun j hj1 hj2 => ?_⟩
        by_cases hji : j = i
        · rw [hji]; exact h
        · exact h4 j (by omega) hj2
      · rintro ⟨h1, h2, h3, h4⟩
        have hne : i ≠ p := fun hp => h (hp ▸ h3)
        exact ⟨by omega, by omega, h3, fun j hj1 hj2 => h4 j (by omega) hj2⟩

/-- The search finds nothing exactly when its range holds no marker. -/
theorem Memory.findFrom_eq_none {m : Memory} {n i : Nat} :
    m.findFrom n i = none ↔ ∀ j, i ≤ j → j < i + n → m.read j ≠ marker := by
  induction n generalizing i with
  | zero => simp only [Memory.findFrom, true_iff]; intro j h1 h2; omega
  | succ n ih =>
    simp only [Memory.findFrom]
    split
    · next h =>
      simp only [reduceCtorEq, false_iff]
      exact fun hc => hc i (Nat.le_refl _) (by omega) h
    · next h =>
      rw [ih]
      constructor
      · intro hc j h1 h2
        by_cases hji : j = i
        · rw [hji]; exact h
        · exact hc j (by omega) (by omega)
      · exact fun hc j h1 h2 => hc j (by omega) (by omega)

theorem State.findMarker_eq_some {s : State} {p : Nat} :
    s.findMarker = some p ↔
      s.cursor ≤ p ∧ p < s.params.bufLen ∧ s.buf.read p = marker ∧
        ∀ j, s.cursor ≤ j → j < p → s.buf.read j ≠ marker := by
  rw [State.findMarker, Memory.findFrom_eq_some]
  constructor
  · rintro ⟨h1, h2, h3, h4⟩; exact ⟨h1, by omega, h3, h4⟩
  · rintro ⟨h1, h2, h3, h4⟩; exact ⟨h1, by omega, h3, h4⟩

theorem State.findMarker_eq_none {s : State} :
    s.findMarker = none ↔ ∀ j, s.cursor ≤ j → j < s.params.bufLen → s.buf.read j ≠ marker := by
  rw [State.findMarker, Memory.findFrom_eq_none]
  constructor
  · exact fun h j h1 h2 => h j h1 (by omega)
  · exact fun h j h1 h2 => h j h1 (by omega)

end Sys2Proof.Machine
end

