-- ==== Sys2Proof/Laws/PerInstr.lean ====
section
/-! SUPPORT. Statements made of every instruction, one lemma per constructor. -/

namespace Sys2Proof.Laws.Encoding

/-- Every instruction's encoding is the marker, its kind's command id and then its body, and decoding the map entry of
that command id gives the kind back (30_encoding.md R61, R63). -/
def Statement (i : Instr) : Prop :=
  encode i = marker :: i.kind.commandId :: i.body ∧ kindOf i.kind.commandId = some i.kind

theorem button (c : Candidate ButtonOperands) : Statement (.button c) := ⟨rfl, rfl⟩
theorem color (c : Candidate ColorOperands) : Statement (.color c) := ⟨rfl, rfl⟩
theorem quaternion (c : Candidate QuaternionOperands) : Statement (.quaternion c) := ⟨rfl, rfl⟩
theorem accelerometer (c : Candidate VectorOperands) : Statement (.accelerometer c) := ⟨rfl, rfl⟩
theorem gyro (c : Candidate VectorOperands) : Statement (.gyro c) := ⟨rfl, rfl⟩
theorem magnetometer (c : Candidate VectorOperands) : Statement (.magnetometer c) := ⟨rfl, rfl⟩
theorem location (c : Candidate LocationOperands) : Statement (.location c) := ⟨rfl, rfl⟩

end Sys2Proof.Laws.Encoding
end

