-- ==== Sys2Proof/Laws/Run.lean ====
section
/-! SUPPORT. A run of several steps, one step at a time. -/

namespace Sys2Proof.Machine

@[simp] theorem runSteps_zero (s : State) : runSteps 0 s = .next s := rfl

/-- A run goes on from the state a step answers. -/
theorem runSteps_next {s t : State} (h : step s = .next t) (n : Nat) : runSteps (n + 1) s = runSteps n t := by
  rw [runSteps, h]

/-- A run stops at a refusal. -/
theorem runSteps_refused {s : State} {r : Refusal} (h : step s = .refused r) (n : Nat) :
    runSteps (n + 1) s = .refused r := by
  rw [runSteps, h]

/-- A run stops at a fault. -/
theorem runSteps_fault {s : State} {r : Fault} (h : step s = .fault r) (n : Nat) :
    runSteps (n + 1) s = .fault r := by
  rw [runSteps, h]

end Sys2Proof.Machine
end

