-- ==== Sys2Proof/Laws/State.lean ====
section
/-! SUPPORT. Every field after every update of State, so that no proof unfolds a record update. -/

namespace Sys2Proof.Machine

variable (s : State)

@[simp] theorem State.start_params : (s.start).params = s.params := rfl
@[simp] theorem State.start_active : (s.start).active = true := rfl
@[simp] theorem State.start_cursor : (s.start).cursor = 0 := rfl
@[simp] theorem State.start_count : (s.start).count = 0 := rfl
@[simp] theorem State.start_buf : (s.start).buf = s.buf := rfl
@[simp] theorem State.start_inputs : (s.start).inputs = s.inputs := rfl
@[simp] theorem State.start_received : (s.start).received = s.received := rfl

@[simp] theorem State.blockReset_params : (s.blockReset).params = s.params := rfl
@[simp] theorem State.blockReset_active : (s.blockReset).active = false := rfl
@[simp] theorem State.blockReset_cursor : (s.blockReset).cursor = 0 := rfl
@[simp] theorem State.blockReset_count : (s.blockReset).count = 0 := rfl
@[simp] theorem State.blockReset_buf : (s.blockReset).buf = s.buf := rfl
@[simp] theorem State.blockReset_inputs : (s.blockReset).inputs = s.inputs := rfl
@[simp] theorem State.blockReset_received : (s.blockReset).received = s.received := rfl

@[simp] theorem State.answer_params (v : Option Result) : (s.answer v).params = s.params := rfl
@[simp] theorem State.answer_active (v : Option Result) : (s.answer v).active = s.active := rfl
@[simp] theorem State.answer_cursor (v : Option Result) : (s.answer v).cursor = s.cursor := rfl
@[simp] theorem State.answer_count (v : Option Result) : (s.answer v).count = s.count := rfl
@[simp] theorem State.answer_buf (v : Option Result) : (s.answer v).buf = s.buf := rfl
@[simp] theorem State.answer_inputs (v : Option Result) : (s.answer v).inputs = s.inputs := rfl
@[simp] theorem State.answer_received (v : Option Result) : (s.answer v).received = v :: s.received := rfl

@[simp] theorem State.complete_params (r : Result) : (s.complete r).params = s.params := rfl
@[simp] theorem State.complete_active (r : Result) : (s.complete r).active = s.active := rfl
@[simp] theorem State.complete_cursor (r : Result) : (s.complete r).cursor = s.cursor + 1 := rfl
@[simp] theorem State.complete_count (r : Result) : (s.complete r).count = s.count + 1 := rfl
@[simp] theorem State.complete_buf (r : Result) : (s.complete r).buf = s.buf := rfl
@[simp] theorem State.complete_inputs (r : Result) : (s.complete r).inputs = s.inputs := rfl
@[simp] theorem State.complete_received (r : Result) : (s.complete r).received = some r :: s.received := rfl

@[simp] theorem State.endAtBound_params : (s.endAtBound).params = s.params := rfl
@[simp] theorem State.endAtBound_active : (s.endAtBound).active = false := rfl
@[simp] theorem State.endAtBound_cursor : (s.endAtBound).cursor = s.cursor := rfl
@[simp] theorem State.endAtBound_count : (s.endAtBound).count = s.count := rfl
@[simp] theorem State.endAtBound_buf : (s.endAtBound).buf = s.buf := rfl
@[simp] theorem State.endAtBound_inputs : (s.endAtBound).inputs = s.inputs := rfl
@[simp] theorem State.endAtBound_received : (s.endAtBound).received = none :: s.received := rfl

@[simp] theorem State.endOfBuffer_params : (s.endOfBuffer).params = s.params := rfl
@[simp] theorem State.endOfBuffer_active : (s.endOfBuffer).active = false := rfl
@[simp] theorem State.endOfBuffer_cursor : (s.endOfBuffer).cursor = s.params.bufLen := rfl
@[simp] theorem State.endOfBuffer_count : (s.endOfBuffer).count = s.count := rfl
@[simp] theorem State.endOfBuffer_buf : (s.endOfBuffer).buf = s.buf := rfl
@[simp] theorem State.endOfBuffer_inputs : (s.endOfBuffer).inputs = s.inputs := rfl
@[simp] theorem State.endOfBuffer_received : (s.endOfBuffer).received = none :: s.received := rfl

@[simp] theorem State.atMarker_params (p : Nat) : (s.atMarker p).params = s.params := rfl
@[simp] theorem State.atMarker_active (p : Nat) : (s.atMarker p).active = s.active := rfl
@[simp] theorem State.atMarker_cursor (p : Nat) : (s.atMarker p).cursor = p := rfl
@[simp] theorem State.atMarker_count (p : Nat) : (s.atMarker p).count = s.count := rfl
@[simp] theorem State.atMarker_buf (p : Nat) : (s.atMarker p).buf = s.buf := rfl
@[simp] theorem State.atMarker_inputs (p : Nat) : (s.atMarker p).inputs = s.inputs := rfl
@[simp] theorem State.atMarker_received (p : Nat) : (s.atMarker p).received = s.received := rfl

end Sys2Proof.Machine
end

