-- ==== Sys2Proof/Laws/Step.lean ====
section
/-! SUPPORT. What running an instruction, NEXT and a whole step can do, said once each. -/

namespace Sys2Proof.Machine

/-- The result a frame's meaning delivers. -/
def instrResult (p : Params) : Instr → Result
  | .button c => candidateResult p .button ButtonOperands.toBytes buttonResult c
  | .color c => candidateResult p .color ColorOperands.toBytes colorResult c
  | .quaternion c => candidateResult p .quaternion QuaternionOperands.toBytes quaternionResult c
  | .accelerometer c => candidateResult p .accelerometer VectorOperands.toBytes accelerometerResult c
  | .gyro c => candidateResult p .gyro VectorOperands.toBytes gyroResult c
  | .magnetometer c => candidateResult p .magnetometer VectorOperands.toBytes magnetometerResult c
  | .location c => candidateResult p .location LocationOperands.toBytes locationResult c

/-- Every frame completes, by one and the same change of the state. -/
theorem exec_eq (i : Instr) (s : State) : exec i s = .next (s.complete (instrResult s.params i)) := by
  cases i <;> rfl

/-- The result delivered for the marker at CURSOR. -/
def markerResult (s : State) : Result :=
  match decodeAfterMarker (s.candidateBytes s.cursor).tail with
  | .ok (i, _) => instrResult s.params i
  | .error e => .err e

theorem runAtMarker_eq (s : State) : runAtMarker s = .next (s.complete (markerResult s)) := by
  cases hd : decodeAfterMarker (s.candidateBytes s.cursor).tail with
  | ok r => obtain ⟨i, rest⟩ := r; simp [runAtMarker, markerResult, hd, exec_eq]
  | error e => simp [runAtMarker, markerResult, hd]

/-- NEXT always answers, in one of its four ways. -/
theorem execNext_cases (s : State) :
    (s.active = false ∧ execNext s = .next (s.answer none)) ∨
    (s.active = true ∧ s.boundReached = true ∧ execNext s = .next s.endAtBound) ∨
    (s.active = true ∧ s.boundReached = false ∧ s.findMarker = none ∧ execNext s = .next s.endOfBuffer) ∨
    (∃ p, s.active = true ∧ s.boundReached = false ∧ s.findMarker = some p ∧
      execNext s = .next ((s.atMarker p).complete (markerResult (s.atMarker p)))) := by
  cases ha : s.active with
  | false => exact .inl ⟨rfl, by simp [execNext, ha]⟩
  | true =>
    cases hb : s.boundReached with
    | true => exact .inr (.inl ⟨rfl, rfl, by simp [execNext, ha, hb]⟩)
    | false =>
      cases hf : s.findMarker with
      | none => exact .inr (.inr (.inl ⟨rfl, rfl, rfl, by simp [execNext, ha, hb, hf]⟩))
      | some p =>
        exact .inr (.inr (.inr ⟨p, rfl, rfl, rfl, by simp [execNext, ha, hb, hf, runAtMarker_eq]⟩))

/-! ### A step, by the host's next operation -/

theorem step_idle {s : State} (h : s.inputs = []) : step s = .next s := by
  simp [step, takeInput, h]

theorem step_input {s : State} {op : HostOp} {rest : List HostOp} (h : s.inputs = op :: rest) :
    step s = hostStep op { s with inputs := rest } := by
  simp [step, takeInput, h]

/-- Everything a step that answers a next state can have done. -/
theorem step_cases {s t : State} (h : step s = .next t) :
    (s.inputs = [] ∧ t = s) ∨
    ∃ op rest, s.inputs = op :: rest ∧ hostStep op { s with inputs := rest } = .next t := by
  cases hi : s.inputs with
  | nil =>
    rw [step_idle hi] at h
    cases h
    exact .inl ⟨rfl, rfl⟩
  | cons op rest => exact .inr ⟨op, rest, rfl, step_input hi ▸ h⟩

/-- A host write that answers a next state was one the host may make, and changed one byte of BUF. -/
theorem hostWrite_next {s t : State} {i : Nat} {v : Byte} (h : s.hostWrite i v = .next t) :
    i < s.params.bufLen ∧ s.active = false ∧ t = { s with buf := s.buf.write i v } := by
  simp only [State.hostWrite] at h
  split at h
  · cases h
  · split at h
    · cases h
    · next h1 h2 =>
      cases h
      exact ⟨by omega, by simpa using h2, rfl⟩

end Sys2Proof.Machine
end

