-- ==== Sys2Proof/Tests/Slice0.lean ====
section
/-! SUPPORT. The model against the words and vectors of the spec, one step at a time, and for every obligation with
hypotheses a state and operands that meet them. Expected values come from spec/42_payload_decoders.md R150 to R156 and
spec/95_test_vectors.md; each test names its vector. -/

namespace Sys2Proof.Tests
open Sys2Proof Sys2Proof.Machine

/-- A block whose BUF holds `bytes`, with `ops` the host's next operations. -/
def block (p : Params) (bytes : List Byte) (ops : List HostOp) : State :=
  { State.reset with
    params := { p with bufLen := bytes.length }
    buf := Memory.writeAll [] 0 bytes
    inputs := ops }

/-- A live scan at CURSOR 0 with NEXT the host's next operation, no bound, every kind enabled. -/
def live (bytes : List Byte) : State := { block .reference bytes [.next] with active := true }

/-- The same with another ENABLED_KINDS. -/
def liveWith (kinds : BitVec 7) (bytes : List Byte) : State :=
  { block { Params.reference with enabledKinds := kinds } bytes [.next] with active := true }

/-- What a vector states of a NEXT: (ACTIVE, CURSOR, COUNT) after it and what it returned. -/
def seen : Outcome → Option (Bool × Nat × Nat × Option (Option Result))
  | .next t => some (t.active, t.cursor, t.count, t.received.head?)
  | .fault _ => none
  | .refused _ => none

/-- A next state, as data that can be compared. -/
def nextState : Outcome → Option State
  | .next t => some t
  | .fault _ => none
  | .refused _ => none

/-- The hypothesis "no marker from `a` up to `n`" from a form that can be evaluated. -/
theorem upTo {n a : Nat} {P : Nat → Prop} (h : ∀ j, j < n → a ≤ j → P j) : ∀ j, a ≤ j → j < n → P j :=
  fun j h1 h2 => h j h2 h1

/-! ### WellFormed refuses a cut-off frame that is not cut off -/

theorem test_wf_button : (Instr.button (.cut [0x31, 0x31, 0x3A])).wellFormed = false := by decide
theorem test_wf_color : (Instr.color (.cut [1, 2, 3, 0x95])).wellFormed = false := by decide
theorem test_wf_quaternion : (Instr.quaternion (.cut (List.replicate 17 0))).wellFormed = false := by decide
theorem test_wf_accelerometer : (Instr.accelerometer (.cut (List.replicate 13 0))).wellFormed = false := by decide
theorem test_wf_gyro : (Instr.gyro (.cut (List.replicate 13 0))).wellFormed = false := by decide
theorem test_wf_magnetometer : (Instr.magnetometer (.cut (List.replicate 13 0))).wellFormed = false := by decide
theorem test_wf_location : (Instr.location (.cut (List.replicate 13 0))).wellFormed = false := by decide
theorem test_wf_longest_cut : (Instr.quaternion (.cut (List.replicate 16 0))).wellFormed = true := by decide

/-! ### Decoding of words written from the spec's encodings -/

/-- V2.18d, with the first byte of another frame behind it. -/
theorem test_decode_button :
    decode [0x21, 0x42, 0x31, 0x32, 0x39, 0x21] = .ok (.button (.whole ⟨0x31, 0x32⟩ 0x39), [0x21]) := by decide

/-- V2.19. -/
theorem test_decode_color :
    decode [0x21, 0x43, 0x01, 0x02, 0x03, 0x95, 0x00] = .ok (.color (.whole ⟨1, 2, 3⟩ 0x95), [0x00]) := by decide

/-- P4: the second frame. -/
theorem test_decode_quaternion :
    decode [0x21, 0x51, 0, 0, 0, 0, 0, 0, 0, 0, 0, 0, 0, 0, 0, 0, 0x80, 0x3F, 0xCE] =
      .ok (.quaternion (.whole ⟨0, 0, 0, 0x3F800000⟩ 0xCE), []) := by decide

/-- V2.22. -/
theorem test_decode_accelerometer :
    decode [0x21, 0x41, 0x00, 0x00, 0xC0, 0x7F, 0x00, 0x00, 0x80, 0x7F, 0x01, 0x00, 0x00, 0x00, 0x5E] =
      .ok (.accelerometer (.whole ⟨0x7FC00000, 0x7F800000, 0x00000001⟩ 0x5E), []) := by decide

/-- V2.22. -/
theorem test_decode_gyro :
    decode [0x21, 0x47, 0x00, 0x00, 0x00, 0x00, 0x00, 0x00, 0x00, 0x80, 0x00, 0x00, 0x80, 0x3F, 0x58] =
      .ok (.gyro (.whole ⟨0x00000000, 0x80000000, 0x3F800000⟩ 0x58), []) := by decide

/-- V2.21. -/
theorem test_decode_magnetometer :
    decode [0x21, 0x4D, 0x00, 0x00, 0x80, 0x3F, 0x00, 0x00, 0x00, 0x40, 0x00, 0x00, 0x40, 0x40, 0x12, 0x42] =
      .ok (.magnetometer (.whole ⟨0x3F800000, 0x40000000, 0x40400000⟩ 0x12), [0x42]) := by decide

/-- V3. -/
theorem test_decode_location :
    decode [0x21, 0x4C, 0x9A, 0x99, 0x99, 0x3F, 0x33, 0x33, 0x13, 0x40, 0x9A, 0x99, 0x59, 0x40, 0x02, 0x00] =
      .ok (.location (.whole ⟨0x3F99999A, 0x40133333, 0x4059999A⟩ 0x02), [0x00]) := by decide

/-- V2.6a: the end of BUF cuts the frame off. -/
theorem test_decode_cut : decode [0x21, 0x42, 0x31] = .ok (.button (.cut [0x31]), []) := by decide

/-- V2.9: command ids are case-sensitive. -/
theorem test_decode_lower_case :
    decode [0x21, 0x62, 0x31, 0x31, 0x3A] = .error (.rejected (.unknownEvent (some 0x62))) := by decide

/-- The words of spec/opcode_table.json. -/
theorem test_table_words :
    [0x2142, 0x2143, 0x2151, 0x2141, 0x2147, 0x214D, 0x214C].map (fun w => (decodeTableWord 16 w).map Instr.kind) =
      [some .button, some .color, some .quaternion, some .accelerometer, some .gyro, some .magnetometer,
        some .location] := by decide

/-- Every table word is what the first step after reset runs: the checksum byte 0 is wrong for each (R125). -/
theorem test_table_words_run :
    ∀ wc ∈ [(0x2142, (0x9C : Byte)), (0x2143, 0x9B), (0x2151, 0x8D), (0x2141, 0x9D), (0x2147, 0x97), (0x214D, 0x91),
        (0x214C, 0x92)],
      seen (step (State.reset.withFetchWord 16 wc.1)) =
        some (true, 1, 1, some (some (.err (.invalidChecksum 0 wc.2)))) := by decide

/-! ### One NEXT of a vector -/

/-- V4, first row. -/
theorem test_button_event :
    seen (step (live [0x21, 0x42, 0x31, 0x31, 0x3A])) =
      some (true, 1, 1, some (some (.ok (.buttonEvent .button1 .pressed)))) := by decide

/-- V4, second row: the carried byte comes first. -/
theorem test_button_checksum :
    seen (step (live [0x21, 0x42, 0x31, 0x31, 0x3B])) =
      some (true, 1, 1, some (some (.err (.invalidChecksum 0x3B 0x3A)))) := by decide

/-- V2.18c: the button byte decides. -/
theorem test_button_both_illegal :
    seen (step (live [0x21, 0x42, 0x39, 0x32, 0x31])) =
      some (true, 1, 1, some (some (.err (.buttonDecodeError (.unknownButton 0x39))))) := by decide

/-- V2.18e. -/
theorem test_button_null_state :
    seen (step (live [0x21, 0x42, 0x31, 0x00, 0x6B])) =
      some (true, 1, 1, some (some (.err (.buttonDecodeError (.unknownButtonState 0x00))))) := by decide

/-- V2.24: a color byte that is a marker. -/
theorem test_color_event :
    seen (step (live [0x21, 0x43, 0x21, 0x10, 0x20, 0x4A])) =
      some (true, 1, 1, some (some (.ok (.colorEvent 0x21 0x10 0x20)))) := by decide

/-- V2.16. -/
theorem test_color_checksum :
    seen (step (live [0x21, 0x43, 0x12, 0x34, 0x57, 0xFF])) =
      some (true, 1, 1, some (some (.err (.invalidChecksum 0xFF 0xFE)))) := by decide

/-- V2.20, V2.22: the largest sum the block can form. -/
theorem test_quaternion_event :
    seen (step (live ([0x21, 0x51] ++ List.replicate 16 0xFF ++ [0x9D]))) =
      some (true, 1, 1, some (some (.ok
        (.quaternionEvent 0xFFFFFFFF 0xFFFFFFFF 0xFFFFFFFF 0xFFFFFFFF)))) := by decide

/-- V2.23: the checksum byte is missing. -/
theorem test_quaternion_cut :
    seen (step (live ([0x21, 0x51] ++ List.replicate 16 0x00))) =
      some (true, 1, 1, some (some (.err (.invalidLength 19 18)))) := by decide

/-- V2.26. -/
theorem test_accelerometer_event :
    seen (step (live
      [0x21, 0x41, 0x21, 0x42, 0x31, 0x31, 0x3A, 0x00, 0x00, 0x00, 0x00, 0x00, 0x00, 0x00, 0x9E])) =
      some (true, 1, 1, some (some (.ok (.accelerometerEvent 0x31314221 0x0000003A 0x00000000)))) := by decide

/-- V2.22. -/
theorem test_gyro_event :
    seen (step (live
      [0x21, 0x47, 0x00, 0x00, 0x00, 0x00, 0x00, 0x00, 0x00, 0x80, 0x00, 0x00, 0x80, 0x3F, 0x58])) =
      some (true, 1, 1, some (some (.ok (.gyroEvent 0x00000000 0x80000000 0x3F800000)))) := by decide

/-- P4: Magnetometer disabled. -/
theorem test_magnetometer_disabled :
    seen (step (liveWith 0b1011111
      [0x21, 0x4D, 0x00, 0x00, 0x80, 0x3F, 0x00, 0x00, 0x00, 0x40, 0x00, 0x00, 0x40, 0x40, 0x12])) =
      some (true, 1, 1, some (some (.err (.disabledEventKind .magnetometer)))) := by decide

/-- V3. -/
theorem test_location_event :
    seen (step (live
      [0x21, 0x4C, 0x9A, 0x99, 0x99, 0x3F, 0x33, 0x33, 0x13, 0x40, 0x9A, 0x99, 0x59, 0x40, 0x02])) =
      some (true, 1, 1, some (some (.ok (.locationEvent 0x3F99999A 0x40133333 0x4059999A)))) := by decide

/-- V2.1. -/
theorem test_empty_buffer : seen (step (live [])) = some (false, 0, 0, some none) := by decide

/-- V2.3. -/
theorem test_marker_last :
    seen (step (live [0x00, 0x00, 0x21])) = some (true, 3, 1, some (some (.err (.unknownEvent none)))) := by decide

/-- V2.4. -/
theorem test_known_id_second_last :
    seen (step (live [0x78, 0x78, 0x21, 0x42])) =
      some (true, 3, 1, some (some (.err (.invalidLength 5 2)))) := by decide

/-- V2.5. -/
theorem test_unknown_id_second_last :
    seen (step (live [0x78, 0x78, 0x21, 0x5A])) =
      some (true, 3, 1, some (some (.err (.unknownEvent (some 0x5A))))) := by decide

/-- V2.8. -/
theorem test_no_marker :
    seen (step (live [0x00, 0x42, 0x31, 0x31, 0x3A])) = some (false, 5, 0, some none) := by decide

/-- V2.12: the second NEXT finds the frame inside the first one's candidate. -/
theorem test_cursor_after_error :
    seen (step { live [0x21, 0x42, 0x31, 0x21, 0x42, 0x31, 0x31, 0x3A] with cursor := 1, count := 1 }) =
      some (true, 4, 2, some (some (.ok (.buttonEvent .button1 .pressed)))) := by decide

/-- V2.14a: the checksum is reported before enablement. -/
theorem test_checksum_before_enablement :
    seen (step (liveWith 0b1111110 [0x21, 0x42, 0x31, 0x31, 0x3B])) =
      some (true, 1, 1, some (some (.err (.invalidChecksum 0x3B 0x3A)))) := by decide

/-- V2.14b: the length is reported before enablement. -/
theorem test_length_before_enablement :
    seen (step (liveWith 0b1111110 [0x21, 0x42, 0x31])) =
      some (true, 1, 1, some (some (.err (.invalidLength 5 3)))) := by decide

/-- V2.20: S and CHECKSUM of a color frame whose low sum byte is 0, and of one whose checksum is 0. -/
theorem test_checksum_values :
    sum16 0 [0x21, 0x43, 0x12, 0x34, 0x56] = 0x0100 ∧ checksum [0x21, 0x43, 0x12, 0x34, 0x56, 0xFF] = 0xFF ∧
      checksum [0x21, 0x43, 0xFF, 0x9C, 0x00, 0x00] = 0x00 := by decide

/-- A host write beyond BUF_LEN faults, one during a scan is refused. -/
theorem test_host_write_stops :
    step { live [0x21] with inputs := [.write 1 0] } = .fault (.noSuchOffset 1) ∧
      step { live [0x21] with inputs := [.write 0 0] } = .refused (.bufferWrittenDuringScan 0) := ⟨rfl, rfl⟩

/-- V2.28: MAX_RESULTS = 0 ends the scan at the first NEXT. -/
theorem test_bound_zero :
    seen (step { live [0x21] with params := ⟨1, .atMost 0, 0b1111111⟩ }) = some (false, 0, 0, some none) := by decide

/-- V2.29 (a). -/
theorem test_next_after_reset :
    seen (step (block .reference [0x21, 0x42, 0x31, 0x31, 0x3A] [.next])) = some (false, 0, 0, some none) := by decide

/-- V2.29 (c): START in the middle of a scan. -/
theorem test_start_abandons_scan :
    seen (step { live [0x21, 0x42] with inputs := [.start], cursor := 2, count := 1 }) =
      some (true, 0, 0, none) := by decide

/-! ### Standalone decoders and packed results -/

/-- V2.27. -/
theorem test_standalone_decoders :
    decButton [0x31, 0x31, 0x31] = .err (.invalidLength 2 3) ∧ decButton [] = .err (.invalidLength 2 0) ∧
      decButton [0x35, 0x31] = .ok (.buttonEvent .up .pressed) ∧ decColor [0x12, 0x34] = .err (.invalidLength 3 2) ∧
      decQuaternion (List.replicate 15 0) = .err (.invalidLength 16 15) ∧
      decLocation (List.replicate 13 0) = .err (.invalidLength 12 13) := by decide

/-- V2.27, DEC_F32. -/
theorem test_standalone_f32 :
    decF32 [0x00, 0x00, 0x80] = .raises (.invalidFloatEncoding 3) ∧ decF32 [] = .raises (.invalidFloatEncoding 0) ∧
      decF32 [0x9A, 0x99, 0x99, 0x3F] = .word 0x3F99999A ∧
      decF32 (List.replicate 5 0) = .refused (.f32SliceTooLong 5) := by decide

/-- V2.30, events. -/
theorem test_packed_events :
    packResult (.ok (.buttonEvent .button1 .pressed)) = some 0x10000 ∧
      packResult (.ok (.colorEvent 0x12 0x34 0x56)) = some 0x56341202 ∧
      packResult (.ok (.locationEvent 0x3F99999A 0x40133333 0x4059999A)) =
        some 0x4059999A401333333F99999A0C := by decide

/-- V2.30, errors. -/
theorem test_packed_errors :
    [Error.unknownEvent none, .unknownEvent (some 0x00), .disabledEventKind .magnetometer,
        .buttonDecodeError (.unknownButtonState 0x33), .invalidLength 5 3, .invalidChecksum 0x3B 0x3A].map
        (fun e => packResult (.err e)) =
      [0x11, 0x10000000011, 0x2B, 0x3341, 0x3000551, 0x3A003B61].map some := by decide

/-! ### Witnesses: encoding -/

/-- The valid Button frame of V4 as an instruction. -/
def pressed1 : Instr := .button (.whole ⟨0x31, 0x31⟩ 0x3A)

/-- The bytes of that frame. -/
def pressed1Bytes : List Byte := [0x21, 0x42, 0x31, 0x31, 0x3A]

/-- Both forms: a whole frame with a byte behind it, and the longest cut-off one. -/
theorem witness_DecodeInvertsEncode :
    (pressed1.wellFormed = true ∧ (pressed1.isWhole = true ∨ [(0x21 : Byte)] = [])) ∧
      ((Instr.quaternion (.cut (List.replicate 16 0))).wellFormed = true ∧
        ((Instr.quaternion (.cut (List.replicate 16 0))).isWhole = true ∨ ([] : List Byte) = [])) := by decide

theorem witness_EncodeInvertsDecode : decode (pressed1Bytes ++ [0x00]) = .ok (pressed1, [0x00]) := by decide

/-- The bytes beside the marker, and ids beside each legal run. -/
theorem witness_NonFramesAreRejected :
    (0x20 : Byte) ≠ 0x21 ∧ (0x22 : Byte) ≠ 0x21 ∧
      ∀ id ∈ [(0x00 : Byte), 0x40, 0x44, 0x46, 0x48, 0x4B, 0x4E, 0x50, 0x52, 0xFF],
        id ∉ [(0x42 : Byte), 0x43, 0x51, 0x41, 0x47, 0x4D, 0x4C] := by decide

theorem witness_FrameLengthIsFixedByKind :
    pressed1.isWhole = true ∧ (Instr.quaternion (.whole ⟨0, 0, 0, 0⟩ 0)).isWhole = true := by decide

/-! ### Witnesses: checksum and payload decoders -/

theorem witness_ChecksumDetectsOneByteChanges :
    (0x31 : Byte) ≠ 0x30 ∧ [(0x01 : Byte), 0x02].Perm [0x02, 0x01] := by decide

/-- The largest sum is met. -/
theorem witness_ChecksumAccumulatorNeverWraps :
    (Instr.quaternion (.whole ⟨0xFFFFFFFF, 0xFFFFFFFF, 0xFFFFFFFF, 0xFFFFFFFF⟩ 0x9D)).isWhole = true := by decide

theorem witness_FloatDecoderCases : ([1, 2, 3] : List Byte).length < 4 ∧ 4 < ([1, 2, 3, 4, 5] : List Byte).length := by
  decide

/-- One for each clause: lengths 1 and 3, the bytes just outside '1' .. '8' and just outside '0' .. '1'. -/
theorem witness_ButtonDecoderOrder :
    (([0x31] : List Byte).length ≠ 2 ∧ ([0x31, 0x31, 0x31] : List Byte).length ≠ 2) ∧
      (buttonOf 0x30 = none ∧ buttonOf 0x39 = none) ∧
      (buttonOf 0x31 = some .button1 ∧ stateOf 0x2F = none ∧ stateOf 0x32 = none) ∧
      (buttonOf 0x38 = some .right ∧ stateOf 0x31 = some .pressed ∧ stateOf 0x30 = some .released) := by decide

theorem witness_FieldDecodersReturnTheirFields :
    (([1, 2] : List Byte).length ≠ 3 ∧ (List.replicate 15 (0 : Byte)).length ≠ 16 ∧
        (List.replicate 13 (0 : Byte)).length ≠ 12) ∧
      decF32 [0x9A, 0x99, 0x99, 0x3F] = .word 0x3F99999A ∧ decF32 [0x33, 0x33, 0x13, 0x40] = .word 0x40133333 ∧
      decF32 [0x9A, 0x99, 0x59, 0x40] = .word 0x4059999A ∧ decF32 [0, 0, 0, 0x80] = .word 0x80000000 := by decide

/-- A length one short and one long; a wrong and a right checksum; the kind disabled and enabled. -/
theorem witness_DispatchChecksInOrder :
    (([0x21, 0x42, 0x31, 0x31] : List Byte).length ≠ Kind.button.payloadLen + 3 ∧
        ([0x21, 0x42, 0x31, 0x31, 0x3A, 0x00] : List Byte).length ≠ Kind.button.payloadLen + 3) ∧
      (pressed1Bytes = [0x21, 0x42] ++ [0x31, 0x31] ++ [0x3A] ∧ ([0x21, 0x42] : List Byte).length = 2 ∧
        ([0x31, 0x31] : List Byte).length = Kind.button.payloadLen) ∧
      (0x3B : Byte) ≠ checksum [0x21, 0x42, 0x31, 0x31, 0x3B] ∧
      ((0x3A : Byte) = checksum pressed1Bytes ∧ (0b1111110 : BitVec 7).getLsbD (kindCode .button) = false) ∧
      (0x3A : Byte) = checksum pressed1Bytes ∧ (0b0000001 : BitVec 7).getLsbD (kindCode .button) = true := by decide

/-! ### Witnesses: frames (R152 to R156) -/

theorem witness_QuaternionFrameCompletes :
    (0x50 : Byte) = ~~~ (0x21 + 0x51 + wordByteSum 0x00000000 + wordByteSum 0x3F800000 + wordByteSum 0xBF800000 +
      wordByteSum 0x3F000000) := by decide

theorem witness_AccelerometerFrameCompletes :
    (0x1E : Byte) = ~~~ (0x21 + 0x41 + wordByteSum 0x3F800000 + wordByteSum 0x40000000 + wordByteSum 0x40400000) := by
  decide

theorem witness_GyroFrameCompletes :
    (0x18 : Byte) = ~~~ (0x21 + 0x47 + wordByteSum 0x3F800000 + wordByteSum 0x40000000 + wordByteSum 0x40400000) := by
  decide

theorem witness_MagnetometerFrameCompletes :
    (0x12 : Byte) = ~~~ (0x21 + 0x4D + wordByteSum 0x3F800000 + wordByteSum 0x40000000 + wordByteSum 0x40400000) := by
  decide

theorem witness_LocationFrameCompletes :
    (0x02 : Byte) = ~~~ (0x21 + 0x4C + wordByteSum 0x3F99999A + wordByteSum 0x40133333 + wordByteSum 0x4059999A) := by
  decide

/-- One instruction of each kind has a next state; the other forms of `witness_DecodeInvertsEncode` do too. -/
theorem witness_FramesChangeNothingElse :
    ∀ i ∈ [pressed1, .color (.whole ⟨1, 2, 3⟩ 0x95), .quaternion (.whole ⟨0, 0, 0, 0⟩ 0), .accelerometer (.cut []),
        .gyro (.whole ⟨0, 0, 0⟩ 0), .magnetometer (.cut [0]), .location (.whole ⟨0, 0, 0⟩ 0)],
      (nextState (exec i State.reset)).isSome = true := by decide

theorem witness_InstructionsRefineDispatch :
    pressed1.wellFormed = true ∧ (Instr.location (.cut (List.replicate 12 0))).wellFormed = true := by decide

/-! ### Witnesses: steps -/

/-- V4 with a byte of noise in front. -/
def noisy : State := live (0x00 :: pressed1Bytes)

theorem witness_StepRunsDecodedInstruction :
    noisy.inputs = [.next] ∧ noisy.active = true ∧ noisy.boundReached = false ∧ noisy.findMarker = some 1 ∧
      decode (noisy.candidateBytes 1) = .ok (pressed1, []) := by decide

/-- A whole frame with the end of BUF right behind it. -/
theorem witness_FrameInBufferIsRun :
    noisy.inputs = [.next] ∧ noisy.active = true ∧ noisy.boundReached = false ∧ noisy.cursor ≤ 1 ∧
      (∀ j, noisy.cursor ≤ j → j < 1 → noisy.buf.read j ≠ 0x21) ∧ pressed1.wellFormed = true ∧
      noisy.buf.slice 1 (1 + (encode pressed1).length) = encode pressed1 ∧
      1 + (encode pressed1).length ≤ noisy.params.bufLen ∧
      (pressed1.isWhole = true ∨ 1 + (encode pressed1).length = noisy.params.bufLen) :=
  ⟨by decide, by decide, by decide, by decide, upTo (by decide), by decide, by decide, by decide, by decide⟩

/-- A cut-off frame: BUF ends with its last byte. -/
theorem witness_FrameInBufferIsRun_cut :
    (live [0x21, 0x42, 0x31]).findMarker = some 0 ∧ (Instr.button (.cut [0x31])).wellFormed = true ∧
      (live [0x21, 0x42, 0x31]).buf.slice 0 (0 + (encode (.button (.cut [0x31]))).length) =
        encode (.button (.cut [0x31])) ∧
      0 + (encode (.button (.cut [0x31]))).length = (live [0x21, 0x42, 0x31]).params.bufLen := by decide

theorem witness_NextRefinesItsPseudocode : noisy.inputs = [.next] := by decide

/-- The outer hypotheses, those of the clauses on a whole frame (which ends where BUF does), and for each error a buffer
that gives it. -/
theorem witness_EachErrorHasItsOneCause :
    (1 < noisy.params.bufLen ∧ noisy.buf.read 1 = 0x21 ∧ noisy.buf.read (1 + 1) = Kind.button.commandId ∧
        1 + (Kind.button.payloadLen + 3) = noisy.params.bufLen) ∧
      decodeAt (live [0x21]) 0 = .err (.unknownEvent none) ∧
      decodeAt (live [0x21, 0x5A]) 0 = .err (.unknownEvent (some 0x5A)) ∧
      decodeAt (live [0x21, 0x42, 0x31, 0x31]) 0 = .err (.invalidLength 5 4) ∧
      decodeAt (live [0x21, 0x42, 0x31, 0x31, 0x3B]) 0 = .err (.invalidChecksum 0x3B 0x3A) ∧
      decodeAt (liveWith 0b1111110 pressed1Bytes) 0 = .err (.disabledEventKind .button) ∧
      decodeAt (live [0x21, 0x42, 0x30, 0x31, 0x3B]) 0 = .err (.buttonDecodeError (.unknownButton 0x30)) ∧
      decodeAt (live [0x21, 0x42, 0x31, 0x32, 0x39]) 0 = .err (.buttonDecodeError (.unknownButtonState 0x32)) := by
  decide

theorem witness_StartBeginsAScan : (block .reference [] [.start]).inputs = [.start] := by decide

/-- What the host issues after a reset in the middle of a scan, up to a START. -/
def afterReset : List HostOp := [.next, .write 5 0x3B, .reset, .next, .start]

/-- The four operations before the START run to the end, the write of the last byte of BUF among them. -/
theorem witness_BlockResetStopsTheScan :
    ({ noisy with inputs := .reset :: afterReset, cursor := 2, count := 1 } : State).inputs = .reset :: afterReset ∧
      (∀ op ∈ afterReset.take 4, op ≠ .start) ∧
      (nextState (runSteps 4 { noisy with active := false, cursor := 0, count := 0, inputs := afterReset })).isSome =
        true := by decide

theorem witness_NextWithoutScanReturnsNone :
    (block .reference pressed1Bytes [.next]).inputs = [.next] ∧
      (block .reference pressed1Bytes [.next]).active = false := by decide

/-- A live scan of V1's kind with MAX_RESULTS = 1 and one result yielded. -/
def atBound : State := { noisy with params := ⟨6, .atMost 1, 0b1111111⟩, cursor := 2, count := 1 }

theorem witness_NextAtBoundEndsScan :
    atBound.inputs = [.next] ∧ atBound.active = true ∧ atBound.params.maxResults = .atMost atBound.count := by decide

/-- V2.8. -/
theorem witness_NextWithoutMarkerEndsScan :
    (live [0x00, 0x42]).inputs = [.next] ∧ (live [0x00, 0x42]).active = true ∧
      (live [0x00, 0x42]).boundReached = false ∧
      (∀ j, (live [0x00, 0x42]).cursor ≤ j → j < (live [0x00, 0x42]).params.bufLen →
        (live [0x00, 0x42]).buf.read j ≠ 0x21) :=
  ⟨by decide, by decide, by decide, upTo (by decide)⟩

theorem witness_NextPassesOverNoise :
    noisy.inputs = [.next] ∧ noisy.active = true ∧ noisy.boundReached = false ∧ noisy.cursor ≤ 1 ∧
      1 < noisy.params.bufLen ∧ noisy.buf.read 1 = 0x21 ∧
      (∀ j, noisy.cursor ≤ j → j < 1 → noisy.buf.read j ≠ 0x21) :=
  ⟨by decide, by decide, by decide, by decide, by decide, by decide, upTo (by decide)⟩

/-- V2.5. -/
def unknownId : State := live [0x78, 0x78, 0x21, 0x5A]

theorem witness_UnknownCommandIdIsReported :
    unknownId.inputs = [.next] ∧ unknownId.active = true ∧ unknownId.boundReached = false ∧
      unknownId.cursor ≤ 2 ∧ 2 + 1 < unknownId.params.bufLen ∧ unknownId.buf.read 2 = 0x21 ∧
      (∀ j, unknownId.cursor ≤ j → j < 2 → unknownId.buf.read j ≠ 0x21) ∧
      unknownId.buf.read (2 + 1) ∉ [(0x42 : Byte), 0x43, 0x51, 0x41, 0x47, 0x4D, 0x4C] :=
  ⟨by decide, by decide, by decide, by decide, by decide, by decide, upTo (by decide), by decide⟩

/-- V2.4. -/
def cutOff : State := live [0x78, 0x78, 0x21, 0x42]

theorem witness_CutOffFrameReportsItsLength :
    cutOff.inputs = [.next] ∧ cutOff.active = true ∧ cutOff.boundReached = false ∧
      cutOff.cursor ≤ 2 ∧ 2 + 1 < cutOff.params.bufLen ∧ cutOff.buf.read 2 = 0x21 ∧
      (∀ j, cutOff.cursor ≤ j → j < 2 → cutOff.buf.read j ≠ 0x21) ∧
      cutOff.buf.read (2 + 1) = Kind.button.commandId ∧ cutOff.params.bufLen < 2 + (Kind.button.payloadLen + 3) :=
  ⟨by decide, by decide, by decide, by decide, by decide, by decide, upTo (by decide), by decide, by decide⟩

theorem witness_IdleBlockHoldsItsState : State.reset.inputs = [] := by decide

/-! ### Witnesses: the host and BUF -/

/-- A host about to write the last byte of BUF, between scans. -/
def filling : State := block .reference [0x21, 0x42] [.write 1 0x43]

theorem witness_HostFillsBufferBetweenScans :
    filling.inputs = [.write 1 0x43] ∧ filling.active = false ∧ 1 < filling.params.bufLen ∧
      filling.buf.wf = true := by decide

theorem witness_WriteDuringScanIsRefused :
    ({ filling with active := true } : State).inputs = [.write 1 0x43] ∧
      ({ filling with active := true } : State).active = true ∧
      1 < ({ filling with active := true } : State).params.bufLen := by decide

/-- Both stops of `OnlyHostWritesStop` happen, at offset BUF_LEN and at BUF_LEN - 1. -/
theorem witness_OnlyHostWritesStop :
    step { filling with inputs := [.write 2 0x43] } = .fault (.noSuchOffset 2) ∧
      step { filling with active := true } = .refused (.bufferWrittenDuringScan 1) := ⟨rfl, rfl⟩

theorem witness_QuietHostNeverStops :
    ({ noisy with inputs := [.start, .next, .reset, .next] } : State).quietHost = true := by decide

theorem witness_BlockNeverWritesBuffer :
    (nextState (step noisy)).isSome = true ∧ (∀ op ∈ noisy.inputs.head?, op.isWrite = false) := by decide

theorem witness_ConfigurationNeverChanges : (nextState (step filling)).isSome = true := by decide

theorem witness_ReturnedValuesPersist : (nextState (step noisy)).isSome = true := by decide

/-! ### Witnesses: invariants -/

theorem witness_StepKeepsBufferWellFormed :
    filling.bufferWf = true ∧ (nextState (step filling)).isSome = true := by decide

/-- One result short of the bound, so that the step reaches it. -/
def belowBound : State := { atBound with cursor := 0, count := 0 }

theorem witness_StepKeepsCursorAndCountInRange :
    belowBound.inRange ∧ (nextState (step belowBound)).isSome = true := by
  refine ⟨⟨by decide, ?_⟩, by decide⟩
  intro n h
  cases h
  decide

/-- A live scan that has yielded the one result below CURSOR. -/
def oneYielded : State :=
  { live (pressed1Bytes ++ pressed1Bytes) with
    cursor := 1
    count := 1
    received := [some (.ok (.buttonEvent .button1 .pressed))] }

theorem witness_StepKeepsLiveScanRecord :
    oneYielded.liveScanRecorded ∧ oneYielded.active = true ∧ (nextState (step oneYielded)).isSome = true :=
  ⟨fun _ => ⟨by decide, by decide⟩, by decide, by decide⟩

/-- A START that moves CURSOR down, and a NEXT that returns a result. -/
theorem witness_CursorNeverRewinds :
    (oneYielded.cursor ≤ oneYielded.params.bufLen ∧
        (nextState (step { oneYielded with inputs := [.start] })).map State.cursor = some 0) ∧
      (nextState (step oneYielded)).map State.received =
        some (some (.ok (.buttonEvent .button1 .pressed)) :: oneYielded.received) := by decide

theorem witness_ErrorsReachableThroughNext :
    (nextState (step cutOff)).map State.received = some (some (.err (.invalidLength 5 2)) :: cutOff.received) := by
  decide

/-! ### Witnesses: whole scans -/

/-- Two memories that differ only below CURSOR and beyond the candidate frame. -/
theorem witness_NextReadsOnlyListedBytes :
    ({ noisy with cursor := 1 } : State).inputs = [.next] ∧ ({ noisy with cursor := 1 } : State).active = true ∧
      ({ noisy with cursor := 1 } : State).boundReached = false ∧
      ({ noisy with cursor := 1 } : State).findMarker = some 1 ∧
      (∀ j, ({ noisy with cursor := 1 } : State).cursor ≤ j →
        j < ({ noisy with cursor := 1 } : State).candidateEnd 1 →
          ((noisy.buf.write 0 0x21).write 6 0x21).read j = noisy.buf.read j) :=
  ⟨by decide, by decide, by decide, by decide, upTo (by decide)⟩

/-- Two blocks with one buffer, one of them in the middle of a scan. -/
theorem witness_ScanDependsOnBufferAlone :
    ({ noisy with inputs := scanOps 2 } : State).inputs = scanOps 2 ++ [] ∧
      ({ noisy with inputs := scanOps 2 ++ [.reset], cursor := 2, count := 1 } : State).inputs =
        scanOps 2 ++ [.reset] ∧
      noisy.params = ({ noisy with cursor := 2, count := 1 } : State).params ∧
      (∀ j, j < noisy.params.bufLen →
        noisy.buf.read j = ({ noisy with cursor := 2, count := 1 } : State).buf.read j) :=
  ⟨by decide, by decide, by decide, fun _ _ => rfl⟩

/-- A buffer of two markers, with no bound and with a bound one above their number. -/
def twoMarkers (b : ResultBound) (n : Nat) : State :=
  { block ⟨0, b, 0b1111111⟩ [0x21, 0x42, 0x00, 0x21] [] with inputs := scanOps n }

theorem witness_ScanYieldsOneResultPerMarker :
    [0, 3] = (List.range (twoMarkers .unbounded 3).params.bufLen).filter
        (fun i => decide ((twoMarkers .unbounded 3).buf.read i = 0x21)) ∧
      (∀ n, (twoMarkers (.atMost 3) 3).params.maxResults = .atMost n → [0, 3].length < n) ∧
      (∀ n, (twoMarkers .unbounded 3).params.maxResults = .atMost n → [0, 3].length < n) ∧
      (twoMarkers .unbounded 3).inputs = scanOps ([0, 3].length + 1) ++ [] := by
  refine ⟨by decide, ?_, ?_, by decide⟩
  · intro n h
    cases h
    decide
  · intro n h
    cases h

/-- The bound equal to the number of markers, and the bound 0. -/
theorem witness_BoundedScanStopsAtBound :
    ([0, 3] = (List.range (twoMarkers (.atMost 2) 3).params.bufLen).filter
          (fun i => decide ((twoMarkers (.atMost 2) 3).buf.read i = 0x21)) ∧
        (twoMarkers (.atMost 2) 3).params.maxResults = .atMost 2 ∧ 2 ≤ [0, 3].length ∧
        (twoMarkers (.atMost 2) 3).inputs = scanOps (2 + 1) ++ []) ∧
      ([0, 3] = (List.range (twoMarkers (.atMost 0) 1).params.bufLen).filter
          (fun i => decide ((twoMarkers (.atMost 0) 1).buf.read i = 0x21)) ∧
        (twoMarkers (.atMost 0) 1).params.maxResults = .atMost 0 ∧ 0 ≤ [0, 3].length ∧
        (twoMarkers (.atMost 0) 1).inputs = scanOps (0 + 1) ++ []) := by decide

theorem witness_EveryScanEnds :
    (twoMarkers .unbounded 5).inputs = scanOps ((twoMarkers .unbounded 5).params.bufLen + 1) ++ [] := by decide

/-! ### Witnesses: packed results -/

/-- Errors at the greatest length that fits, a length error and a float error, and an event with its data field. -/
theorem witness_PackedRecordLayout :
    ((∀ expected actual, Error.invalidLength 5 0xFFFF = .invalidLength expected actual →
          expected < 2 ^ 16 ∧ actual < 2 ^ 16) ∧
        (∀ n, Error.invalidLength 5 0xFFFF = .invalidFloatEncoding n → n < 2 ^ 16)) ∧
      ((∀ expected actual, Error.invalidFloatEncoding 0xFFFF = .invalidLength expected actual →
          expected < 2 ^ 16 ∧ actual < 2 ^ 16) ∧
        (∀ n, Error.invalidFloatEncoding 0xFFFF = .invalidFloatEncoding n → n < 2 ^ 16)) ∧
      (packResult (.ok (.colorEvent 0x12 0x34 0x56)) = some 0x56341202 ∧
        (0x563412 : BitVec 160) = (0x56341202 : BitVec 168).extractLsb' 8 160) ∧
      packResult (.err (.invalidLength 5 0xFFFF)) = some 0xFFFF000551 ∧
        (0xFFFF0005 : BitVec 160) = (0xFFFF000551 : BitVec 168).extractLsb' 8 160 := by
  refine ⟨⟨?_, ?_⟩, ⟨?_, ?_⟩, by decide, by decide⟩
  · rintro _ _ ⟨⟩
    decide
  · rintro _ ⟨⟩
  · rintro _ _ ⟨⟩
  · rintro _ ⟨⟩
    decide

theorem witness_PackedResultIsInjective :
    packResult (.err (.disabledEventKind .magnetometer)) = some 0x2B ∧
      packResult (.err (.disabledEventKind .magnetometer)) = some 0x2B := by decide

end Sys2Proof.Tests
end

section
/-! SUPPORT. The configuration (spec/10_state.md R11): every host operation leaves the three parameters alone. -/

namespace Sys2Proof.Machine

theorem execNext_params {s t : State} (h : execNext s = .next t) : t.params = s.params := by
  obtain ⟨-, he⟩ | ⟨-, -, he⟩ | ⟨-, -, -, he⟩ | ⟨p, -, -, -, he⟩ := execNext_cases s
  all_goals
    cases he.symm.trans h
    simp

theorem hostStep_params {op : HostOp} {s t : State} (h : hostStep op s = .next t) : t.params = s.params := by
  cases op with
  | reset =>
    cases h
    exact s.blockReset_params
  | start =>
    cases h
    exact s.start_params
  | next => exact execNext_params h
  | write i v =>
    obtain ⟨-, -, rfl⟩ := hostWrite_next h
    rfl

/-- Settles O45, by cases on the host's next operation: an idle step answers the same state, and taking an operation
off `inputs` leaves the parameters to that operation. -/
theorem configurationNeverChanges : Obligations.ConfigurationNeverChanges := by
  intro s t h
  obtain ⟨-, rfl⟩ | ⟨op, rest, -, hop⟩ := step_cases h
  · rfl
  · exact (hostStep_params hop :)

end Sys2Proof.Machine
end

section
/-! SUPPORT. What a host operation does, case by case, as one relation: the invariants below are read off it. -/

namespace Sys2Proof.Machine

/-! ### Running the decoded frame is DISPATCH on its bytes -/

theorem withLength_of_length {len : Nat} {pl : List Byte} (h : pl.length = len) (r : Result) :
    withLength len pl r = r := if_pos h

theorem dispatch_of_length_ne {p : Params} {k : Kind} {f : List Byte} (h : f.length ≠ k.frameLen) :
    dispatch p k f = .err (.invalidLength k.frameLen f.length) := if_pos h

/-- DISPATCH on a whole frame: the length check passes and the payload lies between the command id and the checksum. -/
theorem dispatch_whole {p : Params} {k : Kind} {pl : List Byte} (h : pl.length = k.payloadLen) (id cs : Byte) :
    dispatch p k (marker :: id :: (pl ++ [cs])) =
      validated p k (marker :: id :: (pl ++ [cs])) (decodePayload k pl) := by
  have hlen : (marker :: id :: (pl ++ [cs])).length = k.frameLen := by
    simp [Kind.frameLen, h]
    omega
  simp [dispatch, hlen, ← h]

/-- A candidate's result is DISPATCH of its frame's bytes, given that the fields of a payload of the right length keep
its bytes and that DECODE_PAYLOAD answers what they mean. -/
theorem candidateResult_ofBody {α : Type} (p : Params) (k : Kind) {toBytes : α → List Byte}
    {fields : List Byte → α} {result : α → Result}
    (hbytes : ∀ pl : List Byte, pl.length = k.payloadLen → toBytes (fields pl) = pl)
    (hpayload : ∀ pl : List Byte, pl.length = k.payloadLen → decodePayload k pl = result (fields pl))
    {body : List Byte} (h : body.length ≤ k.payloadLen + 1) :
    candidateResult p k toBytes result (.ofBody k.payloadLen fields body) =
      dispatch p k (marker :: k.commandId :: body) := by
  obtain hcut | ⟨pl, cs, rest, rfl, hpl⟩ := body_cases k.payloadLen body
  · have hne : (marker :: k.commandId :: body).length ≠ k.frameLen := by
      simp [Kind.frameLen]
      omega
    rw [Candidate.ofBody_cut fields hcut, dispatch_of_length_ne hne]
    rfl
  · have hrest : rest = [] := by simpa [hpl] using h
    subst hrest
    rw [Candidate.ofBody_whole fields hpl, dispatch_whole hpl, hpayload pl hpl, candidateResult, hbytes pl hpl]

/-- The instruction decoded from a candidate's bytes means what DISPATCH answers for them. -/
theorem instrResult_decodeKind (p : Params) (k : Kind) {body : List Byte} (h : body.length ≤ k.payloadLen + 1) :
    instrResult p (decodeKind k body) = dispatch p k (marker :: k.commandId :: body) := by
  cases k with
  | button =>
    exact candidateResult_ofBody p .button (fun _ => ButtonOperands.toBytes_ofBytes)
      (fun _ hpl => withLength_of_length hpl _) h
  | color =>
    exact candidateResult_ofBody p .color (fun _ => ColorOperands.toBytes_ofBytes)
      (fun _ hpl => withLength_of_length hpl _) h
  | quaternion =>
    exact candidateResult_ofBody p .quaternion (fun _ => QuaternionOperands.toBytes_ofBytes)
      (fun _ hpl => withLength_of_length hpl _) h
  | accelerometer =>
    exact candidateResult_ofBody p .accelerometer (fun _ => VectorOperands.toBytes_ofBytes)
      (fun _ hpl => withLength_of_length hpl _) h
  | gyro =>
    exact candidateResult_ofBody p .gyro (fun _ => VectorOperands.toBytes_ofBytes)
      (fun _ hpl => withLength_of_length hpl _) h
  | magnetometer =>
    exact candidateResult_ofBody p .magnetometer (fun _ => VectorOperands.toBytes_ofBytes)
      (fun _ hpl => withLength_of_length hpl _) h
  | location =>
    exact candidateResult_ofBody p .location (fun _ => LocationOperands.toBytes_ofBytes)
      (fun _ hpl => withLength_of_length hpl _) h

theorem State.candidateEnd_of_kind {s : State} {p : Nat} {k : Kind} (hin : p + 1 < s.params.bufLen)
    (hk : kindOf (s.buf.read (p + 1)) = some k) :
    s.candidateEnd p = min (p + (k.payloadLen + 3)) s.params.bufLen := by
  have hlen : k.frameLen = k.payloadLen + 3 := by simp [Kind.frameLen]; omega
  simp [State.candidateEnd, hk, hlen, Nat.not_le.2 hin]

theorem decodeAt_of_kind {s : State} {p : Nat} {k : Kind} (hin : p + 1 < s.params.bufLen)
    (hk : kindOf (s.buf.read (p + 1)) = some k) : decodeAt s p = dispatch s.params k (s.candidateBytes p) := by
  simp [decodeAt, State.candidateBytes, State.candidateEnd, hk, Nat.not_le.2 hin]

/-- At a marker, the frame that is decoded and run delivers DECODE_AT (40_scanner.md R101). -/
theorem markerResult_eq_decodeAt {s : State} (hmark : s.buf.read s.cursor = marker) :
    markerResult s = decodeAt s s.cursor := by
  by_cases hin : s.params.bufLen ≤ s.cursor + 1
  · simp [markerResult, decodeAt, State.candidateBytes, State.candidateEnd, hin, Memory.slice, decodeAfterMarker]
  · cases hk : kindOf (s.buf.read (s.cursor + 1)) with
    | none =>
      simp [markerResult, decodeAt, State.candidateBytes, State.candidateEnd, hin, hk, decodeAfterMarker,
        Memory.slice_cons]
    | some k =>
      have hend := State.candidateEnd_of_kind (Nat.lt_of_not_le hin) hk
      have hbytes : s.candidateBytes s.cursor =
          marker :: k.commandId :: s.buf.slice (s.cursor + 2) (s.candidateEnd s.cursor) := by
        rw [State.candidateBytes, Memory.slice_cons _ (by omega), Memory.slice_cons _ (by omega), hmark,
          kindOf_eq_some hk]
      have hlen : (s.buf.slice (s.cursor + 2) (s.candidateEnd s.cursor)).length ≤ k.payloadLen + 1 := by
        rw [Memory.length_slice]
        omega
      rw [decodeAt_of_kind (Nat.lt_of_not_le hin) hk, hbytes, ← instrResult_decodeKind _ _ hlen]
      simp [markerResult, hbytes, decodeAfterMarker, kindOf_commandId]

/-! ### What one host operation does -/

/-- `HostEffect op s t`: in state `s` the host operation `op` answers `t`; one constructor for each way, with the guards
that select it. -/
inductive HostEffect : HostOp → State → State → Prop where
  | reset (s : State) : HostEffect .reset s s.blockReset
  | start (s : State) : HostEffect .start s s.start
  /-- R109 -/
  | noScan {s : State} (inactive : s.active = false) : HostEffect .next s (s.answer none)
  /-- R108 -/
  | atBound {s : State} (active : s.active = true) (bound : s.boundReached = true) : HostEffect .next s s.endAtBound
  /-- R103 -/
  | noMarker {s : State} (active : s.active = true) (bound : s.boundReached = false) (search : s.findMarker = none) :
      HostEffect .next s s.endOfBuffer
  /-- R104 -/
  | found {s : State} {p : Nat} (active : s.active = true) (bound : s.boundReached = false)
      (search : s.findMarker = some p) : HostEffect .next s ((s.atMarker p).complete (decodeAt s p))
  /-- R117 -/
  | write {s : State} {i : Nat} (v : Byte) (inside : i < s.params.bufLen) (inactive : s.active = false) :
      HostEffect (.write i v) s { s with buf := s.buf.write i v }

theorem execNext_effect {s t : State} (h : execNext s = .next t) : HostEffect .next s t := by
  obtain ⟨ha, he⟩ | ⟨ha, hb, he⟩ | ⟨ha, hb, hf, he⟩ | ⟨p, ha, hb, hf, he⟩ := execNext_cases s
  · cases he.symm.trans h
    exact .noScan ha
  · cases he.symm.trans h
    exact .atBound ha hb
  · cases he.symm.trans h
    exact .noMarker ha hb hf
  · cases he.symm.trans h
    obtain ⟨-, -, hmark, -⟩ := State.findMarker_eq_some.1 hf
    have hresult : markerResult (s.atMarker p) = decodeAt s p := markerResult_eq_decodeAt (s := s.atMarker p) hmark
    rw [hresult]
    exact .found ha hb hf

theorem hostStep_effect {op : HostOp} {s t : State} (h : hostStep op s = .next t) : HostEffect op s t := by
  cases op with
  | reset =>
    cases h
    exact .reset s
  | start =>
    cases h
    exact .start s
  | next => exact execNext_effect h
  | write i v =>
    obtain ⟨hi, ha, rfl⟩ := hostWrite_next h
    exact .write v hi ha

/-- A property that does not look at the host's queue and that every host operation keeps is kept by every step. -/
theorem step_keeps {P : State → Prop} (hqueue : ∀ s ops, P s → P { s with inputs := ops })
    (hop : ∀ op s t, HostEffect op s t → P s → P t) {s t : State} (hs : P s) (h : step s = .next t) : P t := by
  obtain ⟨-, rfl⟩ | ⟨op, rest, -, ht⟩ := step_cases h
  · exact hs
  · exact hop op _ t (hostStep_effect ht) (hqueue s rest hs)

end Sys2Proof.Machine
end

section
/-! SUPPORT. What the live scan has yielded (spec/10_state.md R28 b, d). -/

namespace Sys2Proof.Machine

@[simp] theorem markersBelow_zero (s : State) : markersBelow s 0 = [] := rfl

theorem markersBelow_succ (s : State) (c : Nat) :
    markersBelow s (c + 1) = markersBelow s c ++ if s.buf.read c = marker then [c] else [] := by
  by_cases h : s.buf.read c = marker <;> simp [markersBelow, List.range_succ, List.filter_append, h]

/-- Offsets that hold no marker add nothing. -/
theorem markersBelow_eq_of_no_marker {s : State} {c p : Nat} (hcp : c ≤ p)
    (h : ∀ j, c ≤ j → j < p → s.buf.read j ≠ marker) : markersBelow s p = markersBelow s c := by
  induction p, hcp using Nat.le_induction with
  | base => rfl
  | succ p hcp ih =>
    rw [markersBelow_succ, if_neg (h p hcp p.lt_succ_self), List.append_nil]
    exact ih fun j hcj hjp => h j hcj (hjp.trans p.lt_succ_self)

/-- One past the marker that the search found, it is the one new marker. -/
theorem markersBelow_findMarker {s : State} {p : Nat} (h : s.findMarker = some p) :
    markersBelow s (p + 1) = markersBelow s s.cursor ++ [p] := by
  obtain ⟨hcp, -, hmark, hskip⟩ := State.findMarker_eq_some.1 h
  rw [markersBelow_succ, if_pos hmark, markersBelow_eq_of_no_marker hcp hskip]

theorem scanRecorded_start (s : State) : s.start.scanRecorded := by
  simp [State.scanRecorded, scanResults]

/-- A NEXT that finds a marker adds that marker to COUNT and its result to the record. -/
theorem scanRecorded_found {s : State} {p : Nat} (h : s.scanRecorded) (hfind : s.findMarker = some p) :
    ((s.atMarker p).complete (decodeAt s p)).scanRecorded := by
  obtain ⟨hcount, hresults⟩ := h
  refine ⟨(?_ : s.count + 1 = (markersBelow s (p + 1)).length),
    (?_ : decodeAt s p :: scanResults s = ((markersBelow s (p + 1)).map (decodeAt s)).reverse)⟩
  · simp [markersBelow_findMarker hfind, hcount]
  · simp [markersBelow_findMarker hfind, hresults]

theorem hostEffect_keeps_liveScanRecorded {op : HostOp} {s t : State} (h : HostEffect op s t)
    (hs : s.liveScanRecorded) : t.liveScanRecorded := by
  intro hlive
  cases h with
  | reset => cases hlive
  | start => exact scanRecorded_start s
  | noScan inactive => exact absurd (inactive.symm.trans hlive) Bool.false_ne_true
  | atBound => cases hlive
  | noMarker => cases hlive
  | found active bound search => exact scanRecorded_found (hs active) search
  | write v inside inactive => exact absurd (inactive.symm.trans hlive) Bool.false_ne_true

/-- Settles O49: only START and a NEXT that finds a marker leave a scan live in a new place; START empties the record,
and such a NEXT extends it by DECODE_AT of the first marker not yet counted. -/
theorem stepKeepsLiveScanRecord : Obligations.StepKeepsLiveScanRecord :=
  fun _ _ => step_keeps (fun _ _ hs => hs) (fun _ _ _ => hostEffect_keeps_liveScanRecorded)

end Sys2Proof.Machine
end

section
/-! SUPPORT. The returned values, CURSOR and COUNT over one step (spec/10_state.md R14, R27, R28 a, c), and the state
after reset (R26). -/

namespace Sys2Proof.Machine

theorem hostEffect_received {op : HostOp} {s t : State} (h : HostEffect op s t) :
    t.received = s.received ∨ ∃ v, t.received = v :: s.received := by
  cases h with
  | reset => exact .inl rfl
  | start => exact .inl rfl
  | noScan => exact .inr ⟨_, rfl⟩
  | atBound => exact .inr ⟨_, rfl⟩
  | noMarker => exact .inr ⟨_, rfl⟩
  | found => exact .inr ⟨_, rfl⟩
  | write => exact .inl rfl

/-- Settles O46, by cases on the host's next operation: only NEXT touches the returned values, and it puts one before
them. -/
theorem returnedValuesPersist : Obligations.ReturnedValuesPersist := by
  intro s t h
  obtain ⟨-, rfl⟩ | ⟨op, rest, -, hop⟩ := step_cases h
  · exact .inl rfl
  · exact (hostEffect_received (hostStep_effect hop) :)

theorem count_ne_of_boundReached_eq_false {s : State} {n : Nat} (h : s.boundReached = false)
    (hn : s.params.maxResults = .atMost n) : s.count ≠ n := by
  simpa [State.boundReached, hn] using h

theorem hostEffect_keeps_inRange {op : HostOp} {s t : State} (h : HostEffect op s t) (hs : s.inRange) :
    t.inRange := by
  obtain ⟨hcursor, hcount⟩ := hs
  cases h with
  | reset => exact ⟨Nat.zero_le _, fun _ _ => Nat.zero_le _⟩
  | start => exact ⟨Nat.zero_le _, fun _ _ => Nat.zero_le _⟩
  | noScan => exact ⟨hcursor, hcount⟩
  | atBound => exact ⟨hcursor, hcount⟩
  | noMarker => exact ⟨Nat.le_refl _, hcount⟩
  | found active bound search =>
    obtain ⟨-, hlt, -, -⟩ := State.findMarker_eq_some.1 search
    exact ⟨hlt, fun n hn => Nat.lt_of_le_of_ne (hcount n hn) (count_ne_of_boundReached_eq_false bound hn)⟩
  | write => exact ⟨hcursor, hcount⟩

/-- Settles O48: the search answers an offset below BUF_LEN, and NEXT counts a result only below the bound. -/
theorem stepKeepsCursorAndCountInRange : Obligations.StepKeepsCursorAndCountInRange :=
  fun _ _ => step_keeps (fun _ _ hs => hs) (fun _ _ _ => hostEffect_keeps_inRange)

theorem hostEffect_cursor_le {op : HostOp} {s t : State} (h : HostEffect op s t)
    (hs : s.cursor ≤ s.params.bufLen) : op = .start ∨ op = .reset ∨ s.cursor ≤ t.cursor := by
  cases h with
  | reset => exact .inr (.inl rfl)
  | start => exact .inl rfl
  | noScan => exact .inr (.inr (Nat.le_refl _))
  | atBound => exact .inr (.inr (Nat.le_refl _))
  | noMarker => exact .inr (.inr hs)
  | found active bound search =>
    obtain ⟨hle, -, -, -⟩ := State.findMarker_eq_some.1 search
    exact .inr (.inr (Nat.le_succ_of_le hle))
  | write => exact .inr (.inr (Nat.le_refl _))

/-- Only a NEXT that found a marker returns a result, and it leaves CURSOR one past that marker. -/
theorem hostEffect_cursor_lt {op : HostOp} {s t : State} (h : HostEffect op s t) {r : Result}
    (hr : t.received = some r :: s.received) : s.cursor < t.cursor := by
  cases h with
  | reset => exact absurd hr.symm (List.cons_ne_self _ _)
  | start => exact absurd hr.symm (List.cons_ne_self _ _)
  | noScan => cases hr
  | atBound => cases hr
  | noMarker => cases hr
  | found active bound search =>
    obtain ⟨hle, -, -, -⟩ := State.findMarker_eq_some.1 search
    exact Nat.lt_succ_of_le hle
  | write => exact absurd hr.symm (List.cons_ne_self _ _)

/-- Settles O51: NEXT searches from CURSOR up, so it leaves CURSOR where it was, one past a marker at or above it, or
at BUF_LEN; a host write leaves it too. -/
theorem cursorNeverRewinds : Obligations.CursorNeverRewinds := by
  intro s t hs h
  obtain ⟨-, rfl⟩ | ⟨op, rest, hi, hop⟩ := step_cases h
  · exact ⟨fun hlt => absurd hlt (Nat.lt_irrefl _), fun r hr => absurd hr.symm (List.cons_ne_self _ _)⟩
  · have heffect := hostStep_effect hop
    refine ⟨fun hlt => ?_, fun r hr => (hostEffect_cursor_lt heffect hr :)⟩
    obtain rfl | rfl | hle := hostEffect_cursor_le heffect hs
    · simp [hi]
    · simp [hi]
    · exact absurd hlt (Nat.not_lt.2 hle)

/-- Settles O39. -/
theorem idleBlockHoldsItsState : Obligations.IdleBlockHoldsItsState := fun _ => step_idle

/-- Settles O32: each value is the one `State.reset` is written with. -/
theorem resetValues : Obligations.ResetValues := ⟨rfl, rfl, rfl, rfl, fun _ => rfl⟩

theorem scanRecorded_reset : State.reset.scanRecorded := ⟨rfl, rfl⟩

/-- Settles O50: BUF lists no cell, the bound is absent, and no marker lies below CURSOR = 0. -/
theorem resetMeetsInvariants : Obligations.ResetMeetsInvariants :=
  ⟨rfl, ⟨Nat.zero_le _, nofun⟩, fun _ => scanRecorded_reset, scanRecorded_reset⟩

end Sys2Proof.Machine
end

section
/-! SUPPORT. The fields of the packed record (spec/10_state.md R25), each read back from where it was laid. -/

namespace Sys2Proof.Machine

/-! ### The record -/

section
variable (d : BitVec 160) (err kind : Nat) (isErr : BitVec 1)

theorem layout_isErr : (layout d err kind isErr).getLsbD 0 = isErr.getLsbD 0 := by
  rw [layout, BitVec.getLsbD_append]
  rfl

theorem layout_kind : (layout d err kind isErr).extractLsb' 1 3 = BitVec.ofNat 3 kind := by
  rw [layout, BitVec.extractLsb'_append_eq_of_le (by decide), BitVec.extractLsb'_append_eq_right]

theorem layout_err : (layout d err kind isErr).extractLsb' 4 3 = BitVec.ofNat 3 err := by
  rw [layout, BitVec.extractLsb'_append_eq_of_le (by decide), BitVec.extractLsb'_append_eq_of_le (by decide),
    BitVec.extractLsb'_append_eq_right]

theorem layout_reserved : (layout d err kind isErr).getLsbD 7 = false := by
  rw [layout, BitVec.getLsbD_append, BitVec.getLsbD_append, BitVec.getLsbD_append, BitVec.getLsbD_append]
  rfl

theorem layout_data : (layout d err kind isErr).extractLsb' 8 160 = d := by
  rw [layout, BitVec.extractLsb'_append_eq_of_le (by decide), BitVec.extractLsb'_append_eq_of_le (by decide),
    BitVec.extractLsb'_append_eq_of_le (by decide), BitVec.extractLsb'_append_eq_left]

end

/-! ### The data field -/

/-- A widened vector has zeros above its own bits. -/
theorem extractLsb'_setWidth_of_ge {w v : Nat} (x : BitVec w) {start len : Nat} (h : w ≤ start) :
    (x.setWidth v).extractLsb' start len = 0 := by
  ext i hi
  simp [BitVec.getLsbD_of_ge x _ (h.trans (Nat.le_add_right _ _))]

theorem buttonData_fields (b : Button) (st : ButtonState) {d : BitVec 160} (hd : d = eventData (.buttonEvent b st)) :
    [Button.button1, .button2, .button3, .button4, .up, .down, .left, .right][(d.extractLsb' 0 3).toNat]? = some b ∧
      [ButtonState.released, .pressed][(d.extractLsb' 8 1).toNat]? = some st ∧
      d.extractLsb' 3 5 = 0 ∧ d.extractLsb' 9 151 = 0 := by
  subst hd
  cases b <;> cases st <;> decide

theorem colorData_fields (red green blue : Byte) {d : BitVec 160}
    (hd : d = (blue ++ green ++ red : BitVec 24).setWidth 160) :
    d.extractLsb' 0 8 = red ∧ d.extractLsb' 8 8 = green ∧ d.extractLsb' 16 8 = blue ∧ d.extractLsb' 24 136 = 0 := by
  subst hd
  refine ⟨?_, ?_, ?_, extractLsb'_setWidth_of_ge _ (by decide)⟩ <;>
    rw [BitVec.extractLsb'_setWidth_of_le (by decide)]
  · exact BitVec.extractLsb'_append_eq_right
  · rw [BitVec.extractLsb'_append_eq_of_le (by decide), BitVec.extractLsb'_append_eq_right]
  · rw [BitVec.extractLsb'_append_eq_of_le (by decide), BitVec.extractLsb'_append_eq_left]

/-- The data field that the four three-word kinds share. -/
theorem vectorData_fields (x y z : Word32) {d : BitVec 160} (hd : d = (z ++ y ++ x : BitVec 96).setWidth 160) :
    d.extractLsb' 0 32 = x ∧ d.extractLsb' 32 32 = y ∧ d.extractLsb' 64 32 = z ∧ d.extractLsb' 96 64 = 0 := by
  subst hd
  refine ⟨?_, ?_, ?_, extractLsb'_setWidth_of_ge _ (by decide)⟩ <;>
    rw [BitVec.extractLsb'_setWidth_of_le (by decide)]
  · exact BitVec.extractLsb'_append_eq_right
  · rw [BitVec.extractLsb'_append_eq_of_le (by decide), BitVec.extractLsb'_append_eq_right]
  · rw [BitVec.extractLsb'_append_eq_of_le (by decide), BitVec.extractLsb'_append_eq_left]

theorem quaternionData_fields (x y z w : Word32) {d : BitVec 160}
    (hd : d = (w ++ z ++ y ++ x : BitVec 128).setWidth 160) :
    d.extractLsb' 0 32 = x ∧ d.extractLsb' 32 32 = y ∧ d.extractLsb' 64 32 = z ∧ d.extractLsb' 96 32 = w ∧
      d.extractLsb' 128 32 = 0 := by
  subst hd
  refine ⟨?_, ?_, ?_, ?_, extractLsb'_setWidth_of_ge _ (by decide)⟩ <;>
    rw [BitVec.extractLsb'_setWidth_of_le (by decide)]
  · exact BitVec.extractLsb'_append_eq_right
  · rw [BitVec.extractLsb'_append_eq_of_le (by decide), BitVec.extractLsb'_append_eq_right]
  · rw [BitVec.extractLsb'_append_eq_of_le (by decide), BitVec.extractLsb'_append_eq_of_le (by decide),
      BitVec.extractLsb'_append_eq_right]
  · rw [BitVec.extractLsb'_append_eq_of_le (by decide), BitVec.extractLsb'_append_eq_of_le (by decide),
      BitVec.extractLsb'_append_eq_left]

section
variable (present : BitVec 1) (arg1 arg0 : BitVec 16)

theorem argData_arg0 : (argData present arg1 arg0).extractLsb' 0 16 = arg0 := by
  rw [argData, BitVec.extractLsb'_setWidth_of_le (by decide), BitVec.extractLsb'_append_eq_right]

theorem argData_arg1 : (argData present arg1 arg0).extractLsb' 16 16 = arg1 := by
  rw [argData, BitVec.extractLsb'_setWidth_of_le (by decide), BitVec.extractLsb'_append_eq_of_le (by decide),
    BitVec.extractLsb'_append_eq_right]

theorem argData_present : (argData present arg1 arg0).getLsbD 32 = present.getLsbD 0 := by
  rw [argData, BitVec.getLsbD_setWidth, BitVec.getLsbD_append, BitVec.getLsbD_append]
  rfl

theorem argData_unused : (argData present arg1 arg0).extractLsb' 33 127 = 0 :=
  extractLsb'_setWidth_of_ge _ (by decide)

end

/-! ### The arguments of an error -/

/-- What the `data` field of an error carries, as numbers (R25). -/
structure ErrorArgs where
  arg0 : Nat := 0
  arg1 : Nat := 0
  present : Bool := false

def errorArgs : Error → ErrorArgs
  | .unknownEvent none => {}
  | .unknownEvent (some id) => { arg0 := id.toNat, present := true }
  | .disabledEventKind _ => {}
  | .buttonDecodeError (.unknownButton b) => { arg0 := b.toNat }
  | .buttonDecodeError (.unknownButtonState b) => { arg0 := b.toNat }
  | .invalidLength expected actual => { arg0 := expected, arg1 := actual }
  | .invalidChecksum received calculated => { arg0 := received.toNat, arg1 := calculated.toNat }
  | .invalidFloatEncoding n => { arg0 := n }

/-- Both arguments fit their 16 bits. -/
def ErrorArgs.Fits (a : ErrorArgs) : Prop := a.arg0 < 2 ^ 16 ∧ a.arg1 < 2 ^ 16

def ErrorArgs.data (a : ErrorArgs) : BitVec 160 :=
  argData (BitVec.ofBool a.present) (BitVec.ofNat 16 a.arg1) (BitVec.ofNat 16 a.arg0)

/-- A byte fits a 16-bit argument. -/
theorem byte_toNat_lt (b : Byte) : b.toNat < 65536 := b.isLt.trans (by decide)

theorem argData_zero : argData 0 0 0 = 0 := by decide

/-- An error has a `data` field exactly when its arguments fit, and then it is made of them. -/
theorem errorData_eq_some {e : Error} {d : BitVec 160} :
    errorData e = some d ↔ (errorArgs e).Fits ∧ (errorArgs e).data = d := by
  cases e with
  | unknownEvent id =>
    cases id with
    | none => simp [errorData, errorArgs, ErrorArgs.Fits, ErrorArgs.data]
    | some id => simp [errorData, errorArgs, ErrorArgs.Fits, ErrorArgs.data, byte_toNat_lt id]
  | disabledEventKind k =>
    simp only [errorData, ← argData_zero]
    simp [errorArgs, ErrorArgs.Fits, ErrorArgs.data]
  | buttonDecodeError e =>
    cases e with
    | unknownButton b => simp [errorData, errorArgs, ErrorArgs.Fits, ErrorArgs.data, byte_toNat_lt b]
    | unknownButtonState b => simp [errorData, errorArgs, ErrorArgs.Fits, ErrorArgs.data, byte_toNat_lt b]
  | invalidLength expected actual =>
    by_cases he : expected < 65536 <;> by_cases ha : actual < 65536 <;>
      simp [errorData, lengthArg, he, ha, errorArgs, ErrorArgs.Fits, ErrorArgs.data]
  | invalidChecksum received calculated =>
    simp [errorData, errorArgs, ErrorArgs.Fits, ErrorArgs.data, byte_toNat_lt received, byte_toNat_lt calculated]
  | invalidFloatEncoding n =>
    by_cases hn : n < 65536 <;> simp [errorData, lengthArg, hn, errorArgs, ErrorArgs.Fits, ErrorArgs.data]

theorem packResult_err_eq_some {e : Error} {v : BitVec 168} :
    packResult (.err e) = some v ↔
      (errorArgs e).Fits ∧ layout (errorArgs e).data (errorCode e) (errorKindCode e) 1 = v := by
  cases hd : errorData e with
  | none =>
    have hfit : ¬ (errorArgs e).Fits := fun h => by simp [errorData_eq_some.2 ⟨h, rfl⟩] at hd
    simp [packResult, hd, hfit]
  | some d =>
    obtain ⟨hfit, rfl⟩ := errorData_eq_some.1 hd
    simp [packResult, hd, hfit]

theorem errorCode_lt (e : Error) : errorCode e < 8 := by
  cases e with
  | buttonDecodeError e => cases e <;> simp [errorCode]
  | _ => simp [errorCode]

theorem kindCode_lt (k : Kind) : kindCode k < 8 := by
  cases k <;> decide

theorem errorKindCode_lt (e : Error) : errorKindCode e < 8 := by
  cases e with
  | disabledEventKind k => exact kindCode_lt k
  | _ => simp [errorKindCode]

/-- A code of 3 bits reads back from its field as it was laid. -/
theorem toNat_layout_kind (d : BitVec 160) (err : Nat) {kind : Nat} (h : kind < 8) (isErr : BitVec 1) :
    ((layout d err kind isErr).extractLsb' 1 3).toNat = kind := by
  rw [layout_kind, BitVec.toNat_ofNat, Nat.mod_eq_of_lt h]

theorem toNat_layout_err (d : BitVec 160) {err : Nat} (h : err < 8) (kind : Nat) (isErr : BitVec 1) :
    ((layout d err kind isErr).extractLsb' 4 3).toNat = err := by
  rw [layout_err, BitVec.toNat_ofNat, Nat.mod_eq_of_lt h]

/-- The arguments of an error read back from the `data` field. -/
theorem ErrorArgs.data_fields {a : ErrorArgs} (h : a.Fits) :
    (a.data.extractLsb' 0 16).toNat = a.arg0 ∧ (a.data.extractLsb' 16 16).toNat = a.arg1 ∧
      a.data.getLsbD 32 = a.present := by
  obtain ⟨h0, h1⟩ := h
  refine ⟨?_, ?_, ?_⟩
  · rw [ErrorArgs.data, argData_arg0, BitVec.toNat_ofNat, Nat.mod_eq_of_lt h0]
  · rw [ErrorArgs.data, argData_arg1, BitVec.toNat_ofNat, Nat.mod_eq_of_lt h1]
  · rw [ErrorArgs.data, argData_present, BitVec.getLsbD_ofBool]
    simp

/-! ### The layout -/

/-- Only a length can fail to fit. -/
theorem errorArgs_fit_of_lengths {e : Error}
    (hlen : ∀ expected actual, e = .invalidLength expected actual → expected < 2 ^ 16 ∧ actual < 2 ^ 16)
    (hfloat : ∀ n, e = .invalidFloatEncoding n → n < 2 ^ 16) : (errorArgs e).Fits := by
  cases e with
  | unknownEvent id =>
    cases id with
    | none => simp [ErrorArgs.Fits, errorArgs]
    | some id => simp [ErrorArgs.Fits, errorArgs, byte_toNat_lt id]
  | disabledEventKind k => simp [ErrorArgs.Fits, errorArgs]
  | buttonDecodeError e =>
    cases e with
    | unknownButton b => simp [ErrorArgs.Fits, errorArgs, byte_toNat_lt b]
    | unknownButtonState b => simp [ErrorArgs.Fits, errorArgs, byte_toNat_lt b]
  | invalidLength expected actual => exact hlen expected actual rfl
  | invalidChecksum received calculated =>
    simp [ErrorArgs.Fits, errorArgs, byte_toNat_lt received, byte_toNat_lt calculated]
  | invalidFloatEncoding n => exact ⟨hfloat n rfl, by simp [errorArgs]⟩

/-- Settles O59, by the fields of `layout` and, inside its `data` field, those of each event kind and of an error's
arguments; an error packs exactly when its arguments fit. -/
theorem packedRecordLayout : Obligations.PackedRecordLayout := by
  refine ⟨fun e => ⟨_, rfl⟩, fun e hlen hfloat => ?_, fun k => ?_, fun r v d hpack hd => ?_⟩
  · exact ⟨_, packResult_err_eq_some.2 ⟨errorArgs_fit_of_lengths hlen hfloat, rfl⟩⟩
  · cases k <;> rfl
  · cases r with
    | ok e =>
      obtain rfl := Option.some.inj hpack
      rw [layout_data] at hd
      refine ⟨layout_reserved .., layout_isErr .., layout_err .., ?_⟩
      cases e with
      | buttonEvent b st => exact ⟨layout_kind .., buttonData_fields b st hd⟩
      | colorEvent red green blue => exact ⟨layout_kind .., colorData_fields red green blue hd⟩
      | quaternionEvent x y z w => exact ⟨layout_kind .., quaternionData_fields x y z w hd⟩
      | accelerometerEvent x y z => exact ⟨layout_kind .., vectorData_fields x y z hd⟩
      | gyroEvent x y z => exact ⟨layout_kind .., vectorData_fields x y z hd⟩
      | magnetometerEvent x y z => exact ⟨layout_kind .., vectorData_fields x y z hd⟩
      | locationEvent lat lon alt => exact ⟨layout_kind .., vectorData_fields lat lon alt hd⟩
    | err e =>
      obtain ⟨hfit, rfl⟩ := packResult_err_eq_some.1 hpack
      rw [layout_data] at hd
      subst hd
      refine ⟨layout_reserved .., layout_isErr .., argData_unused .., fun kind err arg0 arg1 present h => ?_⟩
      have hargs : (kind, err, arg0, arg1, present) = (errorKindCode e, errorCode e, (errorArgs e).arg0,
          (errorArgs e).arg1, (errorArgs e).present) := by
        rw [h]
        rcases e with (_ | id) | k | (b | b) | _ | _ | n <;> rfl
      cases hargs
      exact ⟨toNat_layout_kind _ _ (errorKindCode_lt e) _, toNat_layout_err _ (errorCode_lt e) _ _,
        ErrorArgs.data_fields hfit⟩

end Sys2Proof.Machine
end

section
/-! SUPPORT. Reading a packed record back (spec/10_state.md R25), which shows that no two results share one. -/

namespace Sys2Proof.Machine

/-- The event of a kind code whose `data` field is `d`. -/
def unpackEvent (d : BitVec 160) : Nat → Option Event
  | 0 =>
    match [Button.button1, .button2, .button3, .button4, .up, .down, .left, .right][(d.extractLsb' 0 3).toNat]?,
      [ButtonState.released, .pressed][(d.extractLsb' 8 1).toNat]? with
    | some b, some st => some (.buttonEvent b st)
    | _, _ => none
  | 1 => some (.colorEvent (d.extractLsb' 0 8) (d.extractLsb' 8 8) (d.extractLsb' 16 8))
  | 2 =>
    some (.quaternionEvent (d.extractLsb' 0 32) (d.extractLsb' 32 32) (d.extractLsb' 64 32) (d.extractLsb' 96 32))
  | 3 => some (.accelerometerEvent (d.extractLsb' 0 32) (d.extractLsb' 32 32) (d.extractLsb' 64 32))
  | 4 => some (.gyroEvent (d.extractLsb' 0 32) (d.extractLsb' 32 32) (d.extractLsb' 64 32))
  | 5 => some (.magnetometerEvent (d.extractLsb' 0 32) (d.extractLsb' 32 32) (d.extractLsb' 64 32))
  | 6 => some (.locationEvent (d.extractLsb' 0 32) (d.extractLsb' 32 32) (d.extractLsb' 64 32))
  | _ => none

/-- The error of an error code whose record has kind code `kind` and arguments `a`. -/
def unpackError (kind : Nat) (a : ErrorArgs) : Nat → Option Error
  | 1 => some (.unknownEvent (if a.present then some (BitVec.ofNat 8 a.arg0) else none))
  | 2 =>
    ([Kind.button, .color, .quaternion, .accelerometer, .gyro, .magnetometer, .location][kind]?).map
      .disabledEventKind
  | 3 => some (.buttonDecodeError (.unknownButton (BitVec.ofNat 8 a.arg0)))
  | 4 => some (.buttonDecodeError (.unknownButtonState (BitVec.ofNat 8 a.arg0)))
  | 5 => some (.invalidLength a.arg0 a.arg1)
  | 6 => some (.invalidChecksum (BitVec.ofNat 8 a.arg0) (BitVec.ofNat 8 a.arg1))
  | 7 => some (.invalidFloatEncoding a.arg0)
  | _ => none

/-- The arguments that a `data` field carries. -/
def unpackArgs (d : BitVec 160) : ErrorArgs where
  arg0 := (d.extractLsb' 0 16).toNat
  arg1 := (d.extractLsb' 16 16).toNat
  present := d.getLsbD 32

/-- The result of a packed record. -/
def unpackResult (v : BitVec 168) : Option Result :=
  if v.getLsbD 0 then
    (unpackError (v.extractLsb' 1 3).toNat (unpackArgs (v.extractLsb' 8 160)) (v.extractLsb' 4 3).toNat).map .err
  else (unpackEvent (v.extractLsb' 8 160) (v.extractLsb' 1 3).toNat).map .ok

theorem unpackEvent_eventData (e : Event) : unpackEvent (eventData e) (kindCode (eventKind e)) = some e := by
  cases e with
  | buttonEvent b st =>
    obtain ⟨hb, hst, -, -⟩ := buttonData_fields b st rfl
    simp only [eventKind, kindCode, unpackEvent, hb, hst]
  | colorEvent red green blue =>
    obtain ⟨hr, hg, hb, -⟩ := colorData_fields red green blue rfl
    simp only [eventKind, kindCode, unpackEvent, eventData, hr, hg, hb]
  | quaternionEvent x y z w =>
    obtain ⟨hx, hy, hz, hw, -⟩ := quaternionData_fields x y z w rfl
    simp only [eventKind, kindCode, unpackEvent, eventData, hx, hy, hz, hw]
  | accelerometerEvent x y z =>
    obtain ⟨hx, hy, hz, -⟩ := vectorData_fields x y z rfl
    simp only [eventKind, kindCode, unpackEvent, eventData, hx, hy, hz]
  | gyroEvent x y z =>
    obtain ⟨hx, hy, hz, -⟩ := vectorData_fields x y z rfl
    simp only [eventKind, kindCode, unpackEvent, eventData, hx, hy, hz]
  | magnetometerEvent x y z =>
    obtain ⟨hx, hy, hz, -⟩ := vectorData_fields x y z rfl
    simp only [eventKind, kindCode, unpackEvent, eventData, hx, hy, hz]
  | locationEvent lat lon alt =>
    obtain ⟨hx, hy, hz, -⟩ := vectorData_fields lat lon alt rfl
    simp only [eventKind, kindCode, unpackEvent, eventData, hx, hy, hz]

theorem unpackArgs_data {a : ErrorArgs} (h : a.Fits) : unpackArgs a.data = a := by
  obtain ⟨h0, h1, hp⟩ := ErrorArgs.data_fields h
  simp only [unpackArgs, h0, h1, hp]

/-- An error is its code, its kind code and its arguments. -/
theorem unpackError_errorArgs (e : Error) : unpackError (errorKindCode e) (errorArgs e) (errorCode e) = some e := by
  cases e with
  | unknownEvent id => cases id <;> simp [unpackError, errorArgs, errorCode]
  | disabledEventKind k => cases k <;> rfl
  | buttonDecodeError e => cases e <;> simp [unpackError, errorArgs, errorCode]
  | invalidLength expected actual => rfl
  | invalidChecksum received calculated => simp [unpackError, errorArgs, errorCode]
  | invalidFloatEncoding n => rfl

theorem unpackResult_packResult {r : Result} {v : BitVec 168} (h : packResult r = some v) :
    unpackResult v = some r := by
  cases r with
  | ok e =>
    obtain rfl := Option.some.inj h
    rw [unpackResult, layout_isErr, layout_data, toNat_layout_kind _ _ (kindCode_lt _), unpackEvent_eventData]
    rfl
  | err e =>
    obtain ⟨hfit, rfl⟩ := packResult_err_eq_some.1 h
    rw [unpackResult, layout_isErr, layout_data, toNat_layout_kind _ _ (errorKindCode_lt e),
      toNat_layout_err _ (errorCode_lt e), unpackArgs_data hfit, unpackError_errorArgs]
    rfl

/-- Settles O60: a packed record reads back as the result it was packed from. -/
theorem packedResultIsInjective : Obligations.PackedResultIsInjective := fun _ _ _ h h' =>
  Option.some.inj ((unpackResult_packResult h).symm.trans (unpackResult_packResult h'))

end Sys2Proof.Machine
end

section
/-! SUPPORT. The host's writes and BUF (spec/20_memory.md R40, R42, R43, R47): what stops the machine, and what leaves
BUF alone. -/

namespace Sys2Proof.Machine

/-! ### What stops the machine -/

theorem hostWrite_eq_fault {s : State} {i : Nat} {v : Byte} {r : Fault} :
    s.hostWrite i v = .fault r ↔ s.params.bufLen ≤ i ∧ r = .noSuchOffset i := by
  by_cases hi : s.params.bufLen ≤ i
  · simp [State.hostWrite, hi, eq_comm]
  · cases ha : s.active <;> simp [State.hostWrite, hi, ha]

theorem hostWrite_eq_refused {s : State} {i : Nat} {v : Byte} {r : Refusal} :
    s.hostWrite i v = .refused r ↔
      i < s.params.bufLen ∧ s.active = true ∧ r = .bufferWrittenDuringScan i := by
  by_cases hi : s.params.bufLen ≤ i
  · simp [State.hostWrite, hi, Nat.not_lt.2 hi]
  · cases ha : s.active <;> simp [State.hostWrite, hi, ha, Nat.lt_of_not_le hi, eq_comm]

theorem execNext_completes (s : State) : ∃ t, execNext s = .next t := by
  obtain ⟨-, he⟩ | ⟨-, -, he⟩ | ⟨-, -, -, he⟩ | ⟨p, -, -, -, he⟩ := execNext_cases s <;> exact ⟨_, he⟩

theorem hostStep_completes {op : HostOp} (h : op.isWrite = false) (s : State) : ∃ t, hostStep op s = .next t := by
  cases op with
  | reset => exact ⟨_, rfl⟩
  | start => exact ⟨_, rfl⟩
  | next => exact execNext_completes s
  | write i v => cases h

/-- A step that answers no next state was a host write. -/
theorem step_eq_hostWrite_of_stops {s : State} (h : ∀ t, step s ≠ .next t) :
    ∃ i v ops, s.inputs = .write i v :: ops ∧ step s = { s with inputs := ops }.hostWrite i v := by
  cases hi : s.inputs with
  | nil => exact absurd (step_idle hi) (h s)
  | cons op ops =>
    cases hop : op.isWrite with
    | true =>
      cases op with
      | write i v => exact ⟨i, v, ops, rfl, step_input hi⟩
      | _ => cases hop
    | false =>
      obtain ⟨t, ht⟩ := hostStep_completes hop { s with inputs := ops }
      exact absurd ((step_input hi).trans ht) (h t)

theorem step_eq_fault {s : State} {r : Fault} :
    step s = .fault r ↔
      ∃ i v ops, s.inputs = .write i v :: ops ∧ s.params.bufLen ≤ i ∧ r = .noSuchOffset i := by
  constructor
  · intro h
    obtain ⟨i, v, ops, hi, hstep⟩ := step_eq_hostWrite_of_stops (s := s) (by simp [h])
    exact ⟨i, v, ops, hi, (hostWrite_eq_fault (s := { s with inputs := ops })).1 (hstep.symm.trans h)⟩
  · rintro ⟨i, v, ops, hi, hr⟩
    exact (step_input hi).trans (hostWrite_eq_fault.2 hr)

theorem step_eq_refused {s : State} {r : Refusal} :
    step s = .refused r ↔
      ∃ i v ops, s.inputs = .write i v :: ops ∧ i < s.params.bufLen ∧ s.active = true ∧
        r = .bufferWrittenDuringScan i := by
  constructor
  · intro h
    obtain ⟨i, v, ops, hi, hstep⟩ := step_eq_hostWrite_of_stops (s := s) (by simp [h])
    exact ⟨i, v, ops, hi, (hostWrite_eq_refused (s := { s with inputs := ops })).1 (hstep.symm.trans h)⟩
  · rintro ⟨i, v, ops, hi, hr⟩
    exact (step_input hi).trans (hostWrite_eq_refused.2 hr)

/-- Settles O42: every operation but a write completes, and a write stops by its offset first and by ACTIVE second. -/
theorem onlyHostWritesStop : Obligations.OnlyHostWritesStop := fun _ =>
  ⟨fun _ => step_eq_fault, fun _ => step_eq_refused⟩

/-- Settles O41: the offset is inside BUF, so ACTIVE decides. -/
theorem writeDuringScanIsRefused : Obligations.WriteDuringScanIsRefused := fun _ ops i v hop ha hi =>
  step_eq_refused.2 ⟨i, v, ops, hop, hi, ha, rfl⟩

/-! ### What BUF keeps -/

theorem hostEffect_buf {op : HostOp} {s t : State} (h : HostEffect op s t) (hop : op.isWrite = false) :
    t.buf = s.buf := by
  cases h with
  | write => cases hop
  | _ => rfl

/-- Settles O44, by cases on the host's next operation: none but a write touches BUF. -/
theorem blockNeverWritesBuffer : Obligations.BlockNeverWritesBuffer := by
  intro s t h hquiet
  have hbuf : t.buf = s.buf := by
    obtain ⟨-, rfl⟩ | ⟨op, rest, hi, hop⟩ := step_cases h
    · rfl
    · exact (hostEffect_buf (hostStep_effect hop) (hquiet op (by simp [hi])) :)
  exact ⟨hbuf, fun a => by rw [hbuf]⟩

theorem State.bufferWf_iff {s : State} :
    s.bufferWf = true ↔ s.buf.wf = true ∧ ∀ c ∈ s.buf, c.1 < s.params.bufLen := by
  simp [State.bufferWf]

theorem hostEffect_keeps_bufferWf {op : HostOp} {s t : State} (h : HostEffect op s t) (hs : s.bufferWf = true) :
    t.bufferWf = true := by
  cases h with
  | write v inside =>
    obtain ⟨hwf, hbelow⟩ := State.bufferWf_iff.1 hs
    refine State.bufferWf_iff.2 ⟨Memory.wf_write hwf _ v, fun c hc => ?_⟩
    obtain ⟨rfl, -⟩ | hold := Memory.mem_write hc
    · exact inside
    · exact hbelow c hold
  | _ => exact hs

/-- Settles O47: a write that completes is below BUF_LEN and keeps the canonical form; no other operation touches BUF
or BUF_LEN. -/
theorem stepKeepsBufferWellFormed : Obligations.StepKeepsBufferWellFormed :=
  fun _ _ hs h => step_keeps (P := fun s => s.bufferWf = true) (fun _ _ hq => hq)
    (fun _ _ _ => hostEffect_keeps_bufferWf) hs h

end Sys2Proof.Machine
end

section
/-! SUPPORT. `decode` and `encode` as inverses of each other (spec/30_encoding.md R61 to R71, 40_scanner.md R106): first
for a candidate's body, then for an instruction's body under its kind, then for a whole byte list. -/

namespace Sys2Proof

/-! ### What a candidate's body is decoded into -/

section
variable {α : Type} {len : Nat} {toBytes : α → List Byte} {fields : List Byte → α}

theorem Candidate.length_body_of_isWhole {c : Candidate α} (hlen : ∀ o, (toBytes o).length = len)
    (h : c.isWhole = true) : (c.body toBytes).length = len + 1 := by
  cases c with
  | whole o cs => simp [Candidate.body, hlen]
  | cut body => cases h

theorem Candidate.length_body_le {c : Candidate α} (hlen : ∀ o, (toBytes o).length = len)
    (h : c.wellFormed len = true) : (c.body toBytes).length ≤ len + 1 := by
  cases c with
  | whole o cs => exact (Candidate.length_body_of_isWhole hlen rfl).le
  | cut body => exact Nat.le_succ_of_le (of_decide_eq_true h)

/-- A candidate is read back from its bytes; only a cut-off one needs nothing to follow it. -/
theorem Candidate.ofBody_body {c : Candidate α} (hlen : ∀ o, (toBytes o).length = len)
    (hfields : ∀ o, fields (toBytes o) = o) {rest : List Byte} (hwf : c.wellFormed len = true)
    (hend : c.isWhole = true ∨ rest = []) : Candidate.ofBody len fields (c.body toBytes ++ rest) = c := by
  cases c with
  | whole o cs =>
    have hbody : (Candidate.whole o cs).body toBytes ++ rest = toBytes o ++ cs :: rest := by simp [Candidate.body]
    rw [hbody, Candidate.ofBody_whole fields (hlen o), hfields]
  | cut body =>
    obtain hwhole | rfl := hend
    · cases hwhole
    · rw [List.append_nil]
      exact Candidate.ofBody_cut fields (of_decide_eq_true hwf)

/-- A decoded candidate keeps every byte up to its checksum's place. -/
theorem Candidate.body_ofBody (hbytes : ∀ pl : List Byte, pl.length = len → toBytes (fields pl) = pl)
    (body : List Byte) : (Candidate.ofBody len fields body).body toBytes = body.take (len + 1) := by
  obtain hcut | ⟨pl, cs, rest, rfl, hpl⟩ := body_cases len body
  · rw [Candidate.ofBody_cut fields hcut, List.take_of_length_le (by omega)]
    rfl
  · rw [Candidate.ofBody_whole fields hpl, Candidate.body, hbytes pl hpl]
    simp [← hpl, List.take_append]

theorem Candidate.wellFormed_ofBody (body : List Byte) : (Candidate.ofBody len fields body).wellFormed len = true := by
  obtain hcut | ⟨pl, cs, rest, rfl, hpl⟩ := body_cases len body
  · rw [Candidate.ofBody_cut fields hcut]
    exact decide_eq_true hcut
  · rw [Candidate.ofBody_whole fields hpl]
    rfl

theorem Candidate.isWhole_ofBody {body : List Byte} (h : len < body.length) :
    (Candidate.ofBody len fields body).isWhole = true := by
  obtain hcut | ⟨pl, cs, rest, rfl, hpl⟩ := body_cases len body
  · omega
  · rw [Candidate.ofBody_whole fields hpl]
    rfl

end

/-! ### What an instruction's body is decoded into -/

theorem Instr.length_body_of_isWhole {i : Instr} (h : i.isWhole = true) :
    i.body.length = i.kind.payloadLen + 1 := by
  cases i <;> exact Candidate.length_body_of_isWhole (fun _ => rfl) h

theorem Instr.length_body_le {i : Instr} (h : i.wellFormed = true) : i.body.length ≤ i.kind.payloadLen + 1 := by
  cases i <;> exact Candidate.length_body_le (fun _ => rfl) h

theorem decodeKind_body {i : Instr} {rest : List Byte} (hwf : i.wellFormed = true)
    (hend : i.isWhole = true ∨ rest = []) : decodeKind i.kind (i.body ++ rest) = i := by
  cases i with
  | button c =>
    exact congrArg Instr.button (c.ofBody_body ButtonOperands.length_toBytes ButtonOperands.ofBytes_toBytes hwf hend)
  | color c =>
    exact congrArg Instr.color (c.ofBody_body ColorOperands.length_toBytes ColorOperands.ofBytes_toBytes hwf hend)
  | quaternion c =>
    exact congrArg Instr.quaternion
      (c.ofBody_body QuaternionOperands.length_toBytes QuaternionOperands.ofBytes_toBytes hwf hend)
  | accelerometer c =>
    exact congrArg Instr.accelerometer
      (c.ofBody_body VectorOperands.length_toBytes VectorOperands.ofBytes_toBytes hwf hend)
  | gyro c =>
    exact congrArg Instr.gyro (c.ofBody_body VectorOperands.length_toBytes VectorOperands.ofBytes_toBytes hwf hend)
  | magnetometer c =>
    exact congrArg Instr.magnetometer
      (c.ofBody_body VectorOperands.length_toBytes VectorOperands.ofBytes_toBytes hwf hend)
  | location c =>
    exact congrArg Instr.location
      (c.ofBody_body LocationOperands.length_toBytes LocationOperands.ofBytes_toBytes hwf hend)

/-- What follows a frame is what its decoding leaves. -/
theorem Instr.drop_body_append {i : Instr} {rest : List Byte} (hwf : i.wellFormed = true)
    (hend : i.isWhole = true ∨ rest = []) : (i.body ++ rest).drop (i.kind.payloadLen + 1) = rest := by
  obtain hwhole | rfl := hend
  · exact List.drop_left' (Instr.length_body_of_isWhole hwhole)
  · rw [List.append_nil]
    exact List.drop_eq_nil_of_le (Instr.length_body_le hwf)

@[simp] theorem kind_decodeKind (k : Kind) (body : List Byte) : (decodeKind k body).kind = k := by
  cases k <;> rfl

theorem body_decodeKind (k : Kind) (body : List Byte) : (decodeKind k body).body = body.take (k.payloadLen + 1) := by
  cases k with
  | button => exact Candidate.body_ofBody (fun _ => ButtonOperands.toBytes_ofBytes) body
  | color => exact Candidate.body_ofBody (fun _ => ColorOperands.toBytes_ofBytes) body
  | quaternion => exact Candidate.body_ofBody (fun _ => QuaternionOperands.toBytes_ofBytes) body
  | accelerometer | gyro | magnetometer => exact Candidate.body_ofBody (fun _ => VectorOperands.toBytes_ofBytes) body
  | location => exact Candidate.body_ofBody (fun _ => LocationOperands.toBytes_ofBytes) body

theorem wellFormed_decodeKind (k : Kind) (body : List Byte) : (decodeKind k body).wellFormed = true := by
  cases k <;> exact Candidate.wellFormed_ofBody body

theorem isWhole_decodeKind {k : Kind} {body : List Byte} (h : k.payloadLen < body.length) :
    (decodeKind k body).isWhole = true := by
  cases k <;> exact Candidate.isWhole_ofBody h

/-! ### Whole byte lists -/

theorem decode_commandId (k : Kind) (body : List Byte) :
    decode (marker :: k.commandId :: body) = .ok (decodeKind k body, body.drop (k.payloadLen + 1)) := by
  simp [decode, decodeAfterMarker, kindOf_commandId]

/-- What decodes to an instruction begins with the marker and a legal command id. -/
theorem decode_eq_ok {bs : List Byte} {r : Instr × List Byte} (h : decode bs = .ok r) :
    ∃ k body, bs = marker :: k.commandId :: body ∧ r = (decodeKind k body, body.drop (k.payloadLen + 1)) := by
  match bs with
  | [] => cases h
  | [m] => by_cases hm : m = marker <;> simp [decode, decodeAfterMarker, hm] at h
  | m :: id :: body =>
    by_cases hm : m = marker
    · cases hk : kindOf id with
      | none => simp [decode, decodeAfterMarker, hm, hk] at h
      | some k =>
        obtain rfl := kindOf_eq_some hk
        subst hm
        rw [decode_commandId] at h
        cases h
        exact ⟨k, body, rfl, rfl⟩
    · simp [decode, hm] at h

theorem decode_encode_append {i : Instr} {rest : List Byte} (hwf : i.wellFormed = true)
    (hend : i.isWhole = true ∨ rest = []) : decode (encode i ++ rest) = .ok (i, rest) := by
  have hbytes : encode i ++ rest = marker :: i.kind.commandId :: (i.body ++ rest) := rfl
  rw [hbytes, decode_commandId, decodeKind_body hwf hend, Instr.drop_body_append hwf hend]

/-- Settles O1: the command id gives the kind back, and the body its operands and what follows. -/
theorem decodeInvertsEncode : Obligations.DecodeInvertsEncode := fun _ _ => decode_encode_append

theorem encode_decodeKind_append (k : Kind) (body : List Byte) :
    encode (decodeKind k body) ++ body.drop (k.payloadLen + 1) = marker :: k.commandId :: body := by
  simp [encode, body_decodeKind]

/-- Settles O2: the decoded bytes are a marker, a command id and a body; the instruction holds the body up to its
checksum's place, and the rest is what lies beyond it. -/
theorem encodeInvertsDecode : Obligations.EncodeInvertsDecode := by
  intro bs i rest h
  obtain ⟨k, body, rfl, hr⟩ := decode_eq_ok h
  cases hr
  refine ⟨encode_decodeKind_append k body, wellFormed_decodeKind k body, ?_⟩
  by_cases hlong : k.payloadLen < body.length
  · exact .inl (isWhole_decodeKind hlong)
  · exact .inr (List.drop_eq_nil_of_le (by omega))

/-! ### Bytes that are no frame -/

theorem kindOf_eq_none {id : Byte} (h : ∀ k : Kind, id ≠ k.commandId) : kindOf id = none :=
  Option.eq_none_iff_forall_ne_some.2 fun k hk => h k (kindOf_eq_some hk)

theorem Kind.commandId_mem (k : Kind) : k.commandId ∈ [(0x42 : Byte), 0x43, 0x51, 0x41, 0x47, 0x4D, 0x4C] := by
  cases k <;> decide

theorem decode_of_ne_marker {b : Byte} (h : b ≠ marker) (rest : List Byte) : decode (b :: rest) = .error .noMarker :=
  if_neg h

theorem decode_of_kindOf_eq_none {id : Byte} (h : kindOf id = none) (rest : List Byte) :
    decode (marker :: id :: rest) = .error (.rejected (.unknownEvent (some id))) := by
  simp [decode, decodeAfterMarker, h]

/-- Settles O5: the map has no entry for an id that is not among the seven command ids. -/
theorem nonFramesAreRejected : Obligations.NonFramesAreRejected := by
  refine ⟨rfl, fun b rest hb => decode_of_ne_marker hb rest, rfl, fun id rest hid => ?_⟩
  have hnone : kindOf id = none := kindOf_eq_none fun k hk => hid (hk ▸ k.commandId_mem)
  exact decode_of_kindOf_eq_none hnone rest

/-! ### Lengths and F32 fields -/

theorem length_encode (i : Instr) : (encode i).length = i.body.length + 2 := rfl

theorem length_encode_of_isWhole {i : Instr} (h : i.isWhole = true) : (encode i).length = i.kind.frameLen := by
  rw [length_encode, Instr.length_body_of_isWhole h, Kind.frameLen]
  omega

/-- Settles O6: the length is FRAME_LEN of the kind, whose seven values are those of R64. -/
theorem frameLengthIsFixedByKind : Obligations.FrameLengthIsFixedByKind := by
  intro i h
  rw [length_encode_of_isWhole h]
  cases i.kind <;> decide

/-- Settles O7: assembling four bytes and taking a pattern's four bytes are inverses of each other. -/
theorem floatFieldIsLittleEndian : Obligations.FloatFieldIsLittleEndian := by
  refine ⟨fun b0 b1 b2 b3 => ?_, fun v => ⟨_, _, _, _, rfl, f32OfBytes_bytes v⟩⟩
  simpa only [f32Bytes, List.cons.injEq, and_true] using f32Bytes_ofBytes b0 b1 b2 b3

end Sys2Proof
end

section
/-! SUPPORT. The frame that stands at the first marker is the one NEXT decodes and runs (spec/40_scanner.md R101, R106,
R107). -/

namespace Sys2Proof.Machine

/-- At a live scan, NEXT runs what stands at the marker the search finds. -/
theorem execNext_of_findMarker {s : State} {p : Nat} (ha : s.active = true) (hb : s.boundReached = false)
    (hp : s.findMarker = some p) : execNext s = runAtMarker (s.atMarker p) := by
  simp [execNext, ha, hb, hp]

theorem step_eq_runAtMarker {s : State} {ops : List HostOp} {p : Nat} (hop : s.inputs = .next :: ops)
    (ha : s.active = true) (hb : s.boundReached = false) (hp : s.findMarker = some p) :
    step s = runAtMarker { s with inputs := ops, cursor := p } :=
  (step_input hop).trans (execNext_of_findMarker (s := { s with inputs := ops }) ha hb hp)

/-- A candidate that decodes to an instruction is run as that instruction. -/
theorem runAtMarker_of_decode {s : State} {i : Instr} {rest : List Byte}
    (h : decode (s.candidateBytes s.cursor) = .ok (i, rest)) : runAtMarker s = exec i s := by
  obtain ⟨k, body, hbytes, hr⟩ := decode_eq_ok h
  cases hr
  simp [runAtMarker, hbytes, decodeAfterMarker, kindOf_commandId]

/-- The bytes of a well-formed instruction that stand in BUF, whole or cut off by its end, are the candidate there. -/
theorem State.candidateBytes_eq_encode {s : State} {p : Nat} {i : Instr} (hwf : i.wellFormed = true)
    (hslice : s.buf.slice p (p + (encode i).length) = encode i) (hin : p + (encode i).length ≤ s.params.bufLen)
    (hend : i.isWhole = true ∨ p + (encode i).length = s.params.bufLen) : s.candidateBytes p = encode i := by
  have hlen := length_encode i
  have hle := Instr.length_body_le hwf
  have hid : s.buf.read (p + 1) = i.kind.commandId := by
    rw [Memory.slice_cons _ (by omega), Memory.slice_cons _ (by omega)] at hslice
    exact (List.cons.inj (List.cons.inj hslice).2).1
  have hcand : s.candidateEnd p = p + (encode i).length := by
    rw [State.candidateEnd_of_kind (by omega) (hid ▸ kindOf_commandId i.kind)]
    obtain hwhole | hcut := hend
    · have hbody := Instr.length_body_of_isWhole hwhole
      omega
    · omega
  rw [State.candidateBytes, hcand, hslice]

/-- Settles O27: the frame's first byte is the marker the search finds, and the candidate there is the frame, which
decodes to its instruction. -/
theorem frameInBufferIsRun : Obligations.FrameInBufferIsRun := by
  intro s ops p i hop ha hb hcursor hnone hwf hslice hin hend
  have hlen := length_encode i
  have hmark : s.buf.read p = marker := by
    rw [Memory.slice_cons _ (by omega)] at hslice
    exact (List.cons.inj hslice).1
  have hfind : s.findMarker = some p := State.findMarker_eq_some.2 ⟨hcursor, by omega, hmark, hnone⟩
  have hdecode : decode (s.candidateBytes p) = .ok (i, []) := by
    rw [State.candidateBytes_eq_encode hwf hslice hin hend, ← List.append_nil (encode i)]
    exact decode_encode_append hwf (.inr rfl)
  rw [step_eq_runAtMarker hop ha hb hfind]
  exact runAtMarker_of_decode (s := { s with inputs := ops, cursor := p }) hdecode

end Sys2Proof.Machine
end

section
/-! SUPPORT. NEXT as one function of what it reads (spec/40_scanner.md R101): its four answers, and that every step of
NEXT delivers the one its state selects. -/

namespace Sys2Proof.Machine

/-! ### The answer of NEXT -/

/-- What a NEXT leaves in the block and returns. -/
structure NextAnswer where
  active : Bool
  cursor : Nat
  count : Nat
  value : Option Result

/-- The answer of NEXT: no live scan (R109), the bound (R108), no marker (R103), a marker (R104). -/
def State.nextAnswer (s : State) : NextAnswer :=
  if s.active then
    if s.boundReached then ⟨false, s.cursor, s.count, none⟩
    else
      match s.findMarker with
      | none => ⟨false, s.params.bufLen, s.count, none⟩
      | some p => ⟨true, p + 1, s.count + 1, some (decodeAt s p)⟩
  else ⟨false, s.cursor, s.count, none⟩

/-- The state with the answer of a NEXT delivered. -/
def State.deliver (s : State) (a : NextAnswer) : State :=
  { s with active := a.active, cursor := a.cursor, count := a.count, received := a.value :: s.received }

section
variable {s : State}

theorem nextAnswer_of_inactive (ha : s.active = false) : s.nextAnswer = ⟨false, s.cursor, s.count, none⟩ := by
  simp [State.nextAnswer, ha]

theorem nextAnswer_of_bound (ha : s.active = true) (hb : s.boundReached = true) :
    s.nextAnswer = ⟨false, s.cursor, s.count, none⟩ := by
  simp [State.nextAnswer, ha, hb]

theorem nextAnswer_of_noMarker (ha : s.active = true) (hb : s.boundReached = false) (hf : s.findMarker = none) :
    s.nextAnswer = ⟨false, s.params.bufLen, s.count, none⟩ := by
  simp [State.nextAnswer, ha, hb, hf]

theorem nextAnswer_of_marker {p : Nat} (ha : s.active = true) (hb : s.boundReached = false)
    (hf : s.findMarker = some p) : s.nextAnswer = ⟨true, p + 1, s.count + 1, some (decodeAt s p)⟩ := by
  simp [State.nextAnswer, ha, hb, hf]

theorem boundReached_iff : s.boundReached = true ↔ s.params.maxResults = .atMost s.count := by
  cases hm : s.params.maxResults with
  | unbounded => simp [State.boundReached, hm]
  | atMost n => simp [State.boundReached, hm, eq_comm]

end

theorem execNext_eq (s : State) : execNext s = .next (s.deliver s.nextAnswer) := by
  obtain ⟨t, ht⟩ := execNext_completes s
  rw [ht]
  congr 1
  cases execNext_effect ht with
  | noScan ha => rw [nextAnswer_of_inactive ha, State.deliver, ← ha]; rfl
  | atBound ha hb => rw [nextAnswer_of_bound ha hb]; rfl
  | noMarker ha hb hf => rw [nextAnswer_of_noMarker ha hb hf]; rfl
  | found ha hb hf => rw [nextAnswer_of_marker ha hb hf, State.deliver, ← ha]; rfl

/-- A NEXT of the host delivers its answer, the operation taken off the queue. -/
theorem step_next {s : State} {ops : List HostOp} (hop : s.inputs = .next :: ops) :
    step s = .next { s.deliver s.nextAnswer with inputs := ops } :=
  (step_input hop).trans (execNext_eq { s with inputs := ops })

/-! ### DECODE_AT, branch by branch -/

theorem decodeAt_of_unknown {s : State} {p : Nat} (hin : p + 1 < s.params.bufLen)
    (hk : kindOf (s.buf.read (p + 1)) = none) :
    decodeAt s p = .err (.unknownEvent (some (s.buf.read (p + 1)))) := by
  simp [decodeAt, hk, Nat.not_le.2 hin]

/-- A frame that the end of BUF cuts off fails DISPATCH's length check. -/
theorem decodeAt_of_cut {s : State} {p : Nat} {k : Kind} (hin : p + 1 < s.params.bufLen)
    (hk : kindOf (s.buf.read (p + 1)) = some k) (hcut : s.params.bufLen < p + (k.payloadLen + 3)) :
    decodeAt s p = .err (.invalidLength (k.payloadLen + 3) (s.params.bufLen - p)) := by
  have hframe : k.frameLen = k.payloadLen + 3 := by simp [Kind.frameLen]; omega
  have hlen : (s.candidateBytes p).length = s.params.bufLen - p := by
    rw [State.candidateBytes, Memory.length_slice, State.candidateEnd_of_kind hin hk, Nat.min_eq_right hcut.le]
  rw [decodeAt_of_kind hin hk, dispatch_of_length_ne (by omega), hframe, hlen]

/-! ### NEXT in every state is the pseudocode of R101 -/

/-- The search from CURSOR, as a search of all of BUF for a marker at or above CURSOR. -/
theorem findMarker_eq_find? (s : State) :
    s.findMarker =
      (List.range s.params.bufLen).find? (fun i => decide (s.cursor ≤ i ∧ s.buf.read i = 0x21)) := by
  cases hf : s.findMarker with
  | none =>
    rw [eq_comm, List.find?_eq_none]
    intro j hj hmark
    obtain ⟨hle, hread⟩ := of_decide_eq_true hmark
    exact State.findMarker_eq_none.1 hf j hle (List.mem_range.1 hj) hread
  | some p =>
    obtain ⟨hle, hlt, hmark, hskip⟩ := State.findMarker_eq_some.1 hf
    rw [eq_comm, List.find?_range_eq_some]
    refine ⟨decide_eq_true ⟨hle, hmark⟩, List.mem_range.2 hlt, fun j hj => ?_⟩
    rw [Bool.not_eq_true', decide_eq_false_iff_not]
    rintro ⟨hcj, hread⟩
    exact hskip j hcj hj hread

/-- Settles O28, by the branches of the pseudocode: the ACTIVE test, the bound test, the search, and DECODE_AT's missing
id, unknown id and DISPATCH. -/
theorem nextRefinesItsPseudocode : Obligations.NextRefinesItsPseudocode := by
  intro s ops hop
  rw [step_next hop, ← findMarker_eq_find?]
  cases ha : s.active with
  | false => simp [nextAnswer_of_inactive ha, State.deliver]
  | true =>
    by_cases hb : s.boundReached = true
    · simp [nextAnswer_of_bound ha hb, boundReached_iff.1 hb, State.deliver]
    · have hbound : s.params.maxResults ≠ .atMost s.count := fun h => hb (boundReached_iff.2 h)
      have hb : s.boundReached = false := Bool.eq_false_iff.2 hb
      cases hf : s.findMarker with
      | none => simp [nextAnswer_of_noMarker ha hb hf, hbound, State.deliver]
      | some p =>
        have hend (k : Kind) : p + 3 + k.payloadLen = p + k.frameLen := by simp only [Kind.frameLen]; omega
        simp only [nextAnswer_of_marker ha hb hf, hbound, State.deliver, hend]
        rfl

/-! ### The single answers -/

/-- Settles O33. -/
theorem nextWithoutScanReturnsNone : Obligations.NextWithoutScanReturnsNone := by
  intro s ops hop ha
  rw [step_next hop, nextAnswer_of_inactive ha, State.deliver, ← ha]

/-- Settles O34. -/
theorem nextAtBoundEndsScan : Obligations.NextAtBoundEndsScan := by
  intro s ops hop ha hbound
  rw [step_next hop, nextAnswer_of_bound ha (boundReached_iff.2 hbound)]
  rfl

/-- Settles O35: the search finds nothing. -/
theorem nextWithoutMarkerEndsScan : Obligations.NextWithoutMarkerEndsScan := by
  intro s ops hop ha hb hnone
  rw [step_next hop, nextAnswer_of_noMarker ha hb (State.findMarker_eq_none.2 hnone)]
  rfl

/-- NEXT at a live scan whose first marker stands at `p`: CURSOR one past it, one result more, nothing else changed. -/
theorem step_next_of_marker {s : State} {ops : List HostOp} {p : Nat} (hop : s.inputs = .next :: ops)
    (ha : s.active = true) (hb : s.boundReached = false) (hcursor : s.cursor ≤ p) (hin : p < s.params.bufLen)
    (hmark : s.buf.read p = 0x21) (hskip : ∀ j, s.cursor ≤ j → j < p → s.buf.read j ≠ 0x21) :
    step s = .next { s with
      inputs := ops
      cursor := p + 1
      count := s.count + 1
      received := some (decodeAt s p) :: s.received } := by
  have hf : s.findMarker = some p := State.findMarker_eq_some.2 ⟨hcursor, hin, hmark, hskip⟩
  rw [step_next hop, nextAnswer_of_marker ha hb hf, State.deliver, ← ha]

/-- Settles O36: the result is DECODE_AT of the first marker. -/
theorem nextPassesOverNoise : Obligations.NextPassesOverNoise :=
  fun _ _ _ hop ha hb hcursor hin hmark hskip => ⟨_, step_next_of_marker hop ha hb hcursor hin hmark hskip⟩

/-- Settles O37: KIND_OF has no entry for the id. -/
theorem unknownCommandIdIsReported : Obligations.UnknownCommandIdIsReported := by
  intro s ops p hop ha hb hcursor hin hmark hskip hid
  have hunknown : kindOf (s.buf.read (p + 1)) = none := kindOf_eq_none fun k hk => hid (hk ▸ k.commandId_mem)
  rw [step_next_of_marker hop ha hb hcursor (by omega) hmark hskip, decodeAt_of_unknown hin hunknown]

/-- Settles O38: the candidate frame is shorter than FRAME_LEN of the kind at p + 1. -/
theorem cutOffFrameReportsItsLength : Obligations.CutOffFrameReportsItsLength := by
  intro s ops p k hop ha hb hcursor hin hmark hskip hid hcut
  have hkind : kindOf (s.buf.read (p + 1)) = some k := hid ▸ kindOf_commandId k
  rw [step_next_of_marker hop ha hb hcursor (by omega) hmark hskip, decodeAt_of_cut hin hkind hcut]

end Sys2Proof.Machine
end

section
/-! SUPPORT. The instruction NEXT runs, and what running one answers (spec/40_scanner.md R107, 41_dispatcher.md R123). -/

namespace Sys2Proof.Machine

theorem instrResult_eq_dispatch (p : Params) {i : Instr} (hwf : i.wellFormed = true) :
    instrResult p i = dispatch p i.kind (encode i) := by
  have hdecode : decodeKind i.kind i.body = i := by simpa using decodeKind_body (rest := []) hwf (.inr rfl)
  have hresult := instrResult_decodeKind p i.kind (Instr.length_body_le hwf)
  rwa [hdecode] at hresult

/-- Settles O25: `i` is what its own body decodes to under its kind, and running a decoded frame is DISPATCH on its
bytes. -/
theorem instructionsRefineDispatch : Obligations.InstructionsRefineDispatch := by
  intro i s hwf
  rw [exec_eq, instrResult_eq_dispatch s.params hwf]
  rfl

/-- Settles O26: the search stands at `p`, and the frame there is run as what it decodes to. -/
theorem stepRunsDecodedInstruction : Obligations.StepRunsDecodedInstruction := by
  intro s ops p i rest hop ha hb hf hdecode
  rw [step_eq_runAtMarker hop ha hb hf]
  exact runAtMarker_of_decode (s := { s with inputs := ops, cursor := p }) hdecode

end Sys2Proof.Machine
end

section
/-! SUPPORT. The host's operations other than NEXT: START (spec/40_scanner.md R100) and filling BUF between scans
(R117), and that a host which does not write is never stopped (R113). -/

namespace Sys2Proof.Machine

/-- Settles O30. -/
theorem startBeginsAScan : Obligations.StartBeginsAScan := fun _ _ => step_input

theorem hostWrite_of_inactive {s : State} {i : Nat} (hin : i < s.params.bufLen) (ha : s.active = false) (v : Byte) :
    s.hostWrite i v = .next { s with buf := s.buf.write i v } := by
  simp [State.hostWrite, ha, Nat.not_le.2 hin]

/-- Settles O40: the write completes, and the written memory reads as `Memory.read_write` says. -/
theorem hostFillsBufferBetweenScans : Obligations.HostFillsBufferBetweenScans := by
  intro s ops i v hop ha hin hwf
  refine ⟨s.buf.write i v, ?_, ?_, fun j hj => ?_⟩
  · exact (step_input hop).trans (hostWrite_of_inactive (s := { s with inputs := ops }) hin ha v)
  · rw [Memory.read_write hwf, if_pos rfl]
  · rw [Memory.read_write hwf, if_neg hj]

theorem hostEffect_inputs {op : HostOp} {s t : State} (h : HostEffect op s t) : t.inputs = s.inputs := by
  cases h <;> rfl

/-- A quiet host's step completes and leaves the host quiet. -/
theorem step_of_quietHost {s : State} (hs : s.quietHost = true) : ∃ t, step s = .next t ∧ t.quietHost = true := by
  cases hi : s.inputs with
  | nil => exact ⟨s, step_idle hi, hs⟩
  | cons op ops =>
    obtain ⟨hop, hops⟩ : op.isWrite = false ∧ ∀ op' ∈ ops, op'.isWrite = false := by
      simpa [State.quietHost, hi] using hs
    obtain ⟨t, ht⟩ := hostStep_completes hop { s with inputs := ops }
    have hinputs : t.inputs = ops := hostEffect_inputs (hostStep_effect ht)
    exact ⟨t, (step_input hi).trans ht, by simpa [State.quietHost, hinputs] using hops⟩

/-- Settles O43, by induction on the number of steps: every step of a quiet host completes and keeps it quiet. -/
theorem quietHostNeverStops : Obligations.QuietHostNeverStops := by
  intro n
  induction n with
  | zero => exact fun s _ => ⟨s, rfl⟩
  | succ n ih =>
    intro s hs
    obtain ⟨t, hstep, ht⟩ := step_of_quietHost hs
    rw [runSteps_next hstep]
    exact ih t ht

end Sys2Proof.Machine
end

section
/-! SUPPORT. What NEXT reads (spec/40_scanner.md R114, R115): its answer under another buffer, and two scans over equal
bytes side by side. -/

namespace Sys2Proof.Machine

/-! ### The bytes of BUF that NEXT looks at -/

/-- The end of what NEXT at a live scan reads (R115). -/
def State.readEnd (s : State) : Nat :=
  match s.findMarker with
  | none => s.params.bufLen
  | some p => s.candidateEnd p

theorem readEnd_of_noMarker {s : State} (h : s.findMarker = none) : s.readEnd = s.params.bufLen := by
  rw [State.readEnd, h]

theorem readEnd_of_marker {s : State} {p : Nat} (h : s.findMarker = some p) : s.readEnd = s.candidateEnd p := by
  rw [State.readEnd, h]

/-- NEXT reads the marker and the command id where BUF holds them. -/
theorem le_candidateEnd (s : State) (p : Nat) : min (p + 2) s.params.bufLen ≤ s.candidateEnd p := by
  unfold State.candidateEnd
  split
  · omega
  · split
    · omega
    · simp only [Kind.frameLen]
      omega

theorem candidateEnd_le {s : State} {p : Nat} (h : p < s.params.bufLen) : s.candidateEnd p ≤ s.params.bufLen := by
  unfold State.candidateEnd
  split
  · exact h
  · split
    · omega
    · exact Nat.min_le_right _ _

theorem readEnd_le (s : State) : s.readEnd ≤ s.params.bufLen := by
  cases hf : s.findMarker with
  | none => exact (readEnd_of_noMarker hf).le
  | some p =>
    obtain ⟨-, hlt, -, -⟩ := State.findMarker_eq_some.1 hf
    exact (readEnd_of_marker hf).trans_le (candidateEnd_le hlt)

theorem findMarker_congr {s : State} {m : Memory}
    (h : ∀ j, s.cursor ≤ j → j < s.readEnd → m.read j = s.buf.read j) :
    { s with buf := m }.findMarker = s.findMarker := by
  cases hf : s.findMarker with
  | none =>
    rw [readEnd_of_noMarker hf] at h
    refine State.findMarker_eq_none.2 fun j hcj hj => ?_
    exact (h j hcj hj).trans_ne (State.findMarker_eq_none.1 hf j hcj hj)
  | some p =>
    rw [readEnd_of_marker hf] at h
    obtain ⟨hle, hlt, hmark, hskip⟩ := State.findMarker_eq_some.1 hf
    have hp : p < s.candidateEnd p := by have := le_candidateEnd s p; omega
    refine State.findMarker_eq_some.2 ⟨hle, hlt, (h p hle hp).trans hmark, fun j hcj hj => ?_⟩
    exact (h j hcj (hj.trans hp)).trans_ne (hskip j hcj hj)

theorem decodeAt_congr {s : State} {m : Memory} {p : Nat}
    (h : ∀ j, p ≤ j → j < s.candidateEnd p → m.read j = s.buf.read j) :
    decodeAt { s with buf := m } p = decodeAt s p := by
  by_cases hin : s.params.bufLen ≤ p + 1
  · exact (if_pos hin).trans (if_pos hin).symm
  · have hin := Nat.lt_of_not_le hin
    have hlisted : p + 1 < s.candidateEnd p := by have := le_candidateEnd s p; omega
    have hid : m.read (p + 1) = s.buf.read (p + 1) := h (p + 1) p.le_succ hlisted
    cases hk : kindOf (s.buf.read (p + 1)) with
    | none =>
      rw [decodeAt_of_unknown hin hk, decodeAt_of_unknown (s := { s with buf := m }) hin (hid ▸ hk)]
      exact congrArg (fun b => Result.err (.unknownEvent (some b))) hid
    | some k =>
      rw [decodeAt_of_kind hin hk, decodeAt_of_kind (s := { s with buf := m }) hin (hid ▸ hk)]
      have hend : { s with buf := m }.candidateEnd p = s.candidateEnd p := by
        simp only [State.candidateEnd, hid]
      rw [State.candidateBytes, State.candidateBytes, hend]
      exact congrArg _ (Memory.slice_congr h)

/-- NEXT answers the same under a buffer that agrees on what NEXT reads. -/
theorem nextAnswer_congr {s : State} {m : Memory}
    (h : s.active = true → s.boundReached = false → ∀ j, s.cursor ≤ j → j < s.readEnd → m.read j = s.buf.read j) :
    { s with buf := m }.nextAnswer = s.nextAnswer := by
  obtain ha | ha := Bool.eq_false_or_eq_true s.active
  · obtain hb | hb := Bool.eq_false_or_eq_true s.boundReached
    · rw [nextAnswer_of_bound ha hb]
      exact nextAnswer_of_bound (s := { s with buf := m }) ha hb
    · have hread := h ha hb
      have hsearch := findMarker_congr hread
      cases hf : s.findMarker with
      | none =>
        rw [nextAnswer_of_noMarker ha hb hf]
        exact nextAnswer_of_noMarker (s := { s with buf := m }) ha hb (hsearch.trans hf)
      | some p =>
        obtain ⟨hle, -, -, -⟩ := State.findMarker_eq_some.1 hf
        rw [readEnd_of_marker hf] at hread
        rw [nextAnswer_of_marker ha hb hf, ← decodeAt_congr fun j hpj => hread j (hle.trans hpj)]
        exact nextAnswer_of_marker (s := { s with buf := m }) ha hb (hsearch.trans hf)
  · rw [nextAnswer_of_inactive ha]
    exact nextAnswer_of_inactive (s := { s with buf := m }) ha

/-- Settles O53: NEXT's answer is the same under the other memory, and delivering it does not touch BUF. -/
theorem nextReadsOnlyListedBytes : Obligations.NextReadsOnlyListedBytes := by
  intro s m ops hop hread
  refine ⟨_, step_next hop, ?_⟩
  rw [step_next (s := { s with buf := m }) hop, nextAnswer_congr hread]
  rfl

/-! ### Two scans over equal bytes -/

/-- Two blocks at the same point of scans over equal bytes; what their hosts issue and have received may differ. -/
structure SameScan (s s' : State) : Prop where
  params : s.params = s'.params
  active : s.active = s'.active
  cursor : s.cursor = s'.cursor
  count : s.count = s'.count
  bytes : ∀ j, j < s.params.bufLen → s.buf.read j = s'.buf.read j

theorem SameScan.nextAnswer_eq {s s' : State} (h : SameScan s s') : s.nextAnswer = s'.nextAnswer := by
  have hbytes : { s with buf := s'.buf }.nextAnswer = s.nextAnswer :=
    nextAnswer_congr fun _ _ j _ hj => (h.bytes j (hj.trans_le (readEnd_le s))).symm
  have hhost : { s with buf := s'.buf } = { s' with inputs := s.inputs, received := s.received } := by
    rw [h.params, h.active, h.cursor, h.count]
  rw [← hbytes, hhost]
  rfl

theorem SameScan.deliver {s s' : State} (h : SameScan s s') (a : NextAnswer) (ops ops' : List HostOp) :
    SameScan { s.deliver a with inputs := ops } { s'.deliver a with inputs := ops' } :=
  ⟨h.params, rfl, rfl, rfl, h.bytes⟩

/-- `n` NEXT operations return the same values on both sides. -/
theorem SameScan.runSteps_replicate_next {s s' : State} (h : SameScan s s') {ops ops' : List HostOp} (n : Nat)
    (hops : s.inputs = List.replicate n .next ++ ops) (hops' : s'.inputs = List.replicate n .next ++ ops') :
    ∃ (t t' : State) (vs : List (Option Result)), runSteps n s = .next t ∧ runSteps n s' = .next t' ∧
      t.received = vs ++ s.received ∧ t'.received = vs ++ s'.received ∧ SameScan t t' := by
  induction n generalizing s s' with
  | zero => exact ⟨s, s', [], rfl, rfl, rfl, rfl, h⟩
  | succ n ih =>
    obtain ⟨t, t', vs, ht, ht', hvs, hvs', hsame⟩ :=
      ih (h.deliver s.nextAnswer (List.replicate n .next ++ ops) (List.replicate n .next ++ ops')) rfl rfl
    have hstep := step_next (s := s) hops
    have hstep' := step_next (s := s') hops'
    rw [← h.nextAnswer_eq] at hstep'
    refine ⟨t, t', vs ++ [s.nextAnswer.value], (runSteps_next hstep n).trans ht,
      (runSteps_next hstep' n).trans ht', ?_, ?_, hsame⟩
    · simpa [State.deliver] using hvs
    · simpa [State.deliver] using hvs'

/-- Settles O54: START brings both blocks to the same point of a scan, and every NEXT keeps them there. -/
theorem scanDependsOnBufferAlone : Obligations.ScanDependsOnBufferAlone := by
  intro s s' ops ops' n hops hops' hparams hbytes
  have hsame : SameScan { s.start with inputs := List.replicate n .next ++ ops }
      { s'.start with inputs := List.replicate n .next ++ ops' } := ⟨hparams, rfl, rfl, rfl, hbytes⟩
  obtain ⟨t, t', vs, ht, ht', hvs, hvs', -, hactive, hcursor, hcount, -⟩ := hsame.runSteps_replicate_next n rfl rfl
  have hstart : step s = .next { s.start with inputs := List.replicate n .next ++ ops } := step_input hops
  have hstart' : step s' = .next { s'.start with inputs := List.replicate n .next ++ ops' } := step_input hops'
  exact ⟨t, t', vs, (runSteps_next hstart n).trans ht, (runSteps_next hstart' n).trans ht', hvs, hvs',
    hactive, hcursor, hcount⟩

end Sys2Proof.Machine
end

section
/-! SUPPORT. Whole scans (spec/40_scanner.md R110 to R112, R116): a live scan yields the markers at or above CURSOR one by
one, and every scan ends. -/

namespace Sys2Proof.Machine

theorem runSteps_add {s t : State} {m : Nat} (h : runSteps m s = .next t) (n : Nat) :
    runSteps (m + n) s = runSteps n t := by
  induction m generalizing s with
  | zero =>
    cases h
    rw [Nat.zero_add]
  | succ m ih =>
    rw [Nat.succ_add]
    cases hs : step s with
    | next u =>
      rw [runSteps_next hs] at h ⊢
      exact ih h
    | fault r =>
      rw [runSteps_fault hs] at h
      cases h
    | refused r =>
      rw [runSteps_refused hs] at h
      cases h

theorem runSteps_one (s : State) : runSteps 1 s = step s := by
  cases hs : step s with
  | next t => exact runSteps_next hs 0
  | fault r => exact runSteps_fault hs 0
  | refused r => exact runSteps_refused hs 0

/-! ### The markers ahead of a scan -/

/-- The offsets at or above CURSOR that hold the marker, in increasing order. -/
def State.markersAhead (s : State) : List Nat :=
  (List.range' s.cursor (s.params.bufLen - s.cursor)).filter (fun i => decide (s.buf.read i = marker))

/-- At START every marker of BUF is ahead. -/
theorem markersAhead_start (s : State) :
    s.start.markersAhead = (List.range s.params.bufLen).filter (fun i => decide (s.buf.read i = 0x21)) := by
  rw [List.range_eq_range']
  rfl

theorem Memory.findFrom_eq_find? (m : Memory) (n i : Nat) :
    m.findFrom n i = (List.range' i n).find? (fun j => decide (m.read j = marker)) := by
  induction n generalizing i with
  | zero => rfl
  | succ n ih => by_cases h : m.read i = marker <;> simp [Memory.findFrom, List.range'_succ, h, ih]

theorem findMarker_eq_head? (s : State) : s.findMarker = s.markersAhead.head? := by
  rw [State.markersAhead, List.head?_filter, State.findMarker, Memory.findFrom_eq_find?]

/-- The state after a scan has yielded one result for each of the markers `ms`. -/
def State.yielded (s : State) (ms : List Nat) : State :=
  { s with
    cursor := ((ms.getLast?).map (· + 1)).getD s.cursor
    count := s.count + ms.length
    received := (ms.map (fun p => some (decodeAt s p))).reverse ++ s.received }

theorem yielded_cons (s : State) (p : Nat) (ms : List Nat) : s.yielded (p :: ms) = (s.yielded [p]).yielded ms := by
  have hcursor : (((p :: ms).getLast?).map (· + 1)).getD s.cursor = ((ms.getLast?).map (· + 1)).getD (p + 1) := by
    cases hms : ms.getLast? <;> simp [List.getLast?_cons, hms]
  have hcount : s.count + (p :: ms).length = s.count + 1 + ms.length := by
    rw [List.length_cons]
    omega
  rw [State.yielded, hcursor, hcount, List.map_cons, List.reverse_cons, List.append_assoc]
  rfl

/-- Once the first marker ahead is yielded, the others are ahead. -/
theorem markersAhead_yielded_singleton {s : State} {p : Nat} {ms : List Nat} (h : s.markersAhead = p :: ms) :
    (s.yielded [p]).markersAhead = ms := by
  obtain ⟨before, after, hrange, -, -, hafter⟩ := List.filter_eq_cons_iff.1 h
  obtain ⟨k, hk, -, htail⟩ := List.range'_eq_append_iff.1 hrange
  obtain ⟨hp, hpos, hrest⟩ := List.range'_eq_cons_iff.1 htail.symm
  have hrange' : after = List.range' (p + 1) (s.params.bufLen - (p + 1)) := by
    rw [hrest]
    congr 1
    omega
  rw [← hafter, hrange']
  rfl

theorem markersAhead_yielded {s : State} {ms rest : List Nat} (h : s.markersAhead = ms ++ rest) :
    (s.yielded ms).markersAhead = rest := by
  induction ms generalizing s with
  | nil => exact h
  | cons p ms ih =>
    rw [yielded_cons]
    exact ih (markersAhead_yielded_singleton h)

/-! ### A live scan yields the markers ahead of it -/

theorem boundReached_eq_false {s : State} (h : ∀ n, s.params.maxResults = .atMost n → s.count < n) :
    s.boundReached = false :=
  Bool.eq_false_iff.2 fun hb => Nat.lt_irrefl _ (h _ (boundReached_iff.1 hb))

/-- Below the bound, one NEXT for each of the first markers ahead yields just these. -/
theorem runSteps_markersAhead {s : State} {ms rest : List Nat} {ops : List HostOp} (ha : s.active = true)
    (hahead : s.markersAhead = ms ++ rest) (hbound : ∀ n, s.params.maxResults = .atMost n → s.count + ms.length ≤ n)
    (hops : s.inputs = List.replicate ms.length .next ++ ops) :
    runSteps ms.length s = .next { s.yielded ms with inputs := ops } := by
  induction ms generalizing s with
  | nil =>
    obtain rfl : s.inputs = ops := hops
    rfl
  | cons p ms ih =>
    have hfind : s.findMarker = some p := by
      rw [findMarker_eq_head?, hahead]
      rfl
    rw [List.length_cons] at hbound
    have hb : s.boundReached = false := boundReached_eq_false fun n hn => by have := hbound n hn; omega
    have hstep := step_next (s := s) hops
    rw [nextAnswer_of_marker ha hb hfind, State.deliver, ← ha] at hstep
    rw [yielded_cons, List.length_cons, runSteps_next hstep]
    refine ih (s := { s.yielded [p] with inputs := List.replicate ms.length .next ++ ops }) ha
      (markersAhead_yielded_singleton (s := s) hahead) (fun n hn => ?_) rfl
    calc s.count + 1 + ms.length = s.count + (ms.length + 1) := by omega
      _ ≤ n := hbound n hn

/-- START and a NEXT for each of the first markers of BUF yield just these; `step` is what one more operation does. -/
theorem runSteps_scan {s : State} {ms rest : List Nat} {ops : List HostOp} (hahead : s.start.markersAhead = ms ++ rest)
    (hbound : ∀ n, s.params.maxResults = .atMost n → ms.length ≤ n)
    (hops : s.inputs = scanOps (ms.length + 1) ++ ops) :
    runSteps (ms.length + 2) s = step { s.start.yielded ms with inputs := .next :: ops } := by
  have hqueue : s.inputs = .start :: (List.replicate ms.length .next ++ .next :: ops) := by
    rw [hops, scanOps, List.replicate_succ']
    simp
  have hscan := runSteps_markersAhead (s := { s.start with inputs := List.replicate ms.length .next ++ .next :: ops })
    rfl hahead (fun n hn => (Nat.zero_add _).trans_le (hbound n hn)) rfl
  have hstart : step s = .next { s.start with inputs := List.replicate ms.length .next ++ .next :: ops } :=
    step_input hqueue
  rw [runSteps_next hstart, runSteps_add hscan, runSteps_one]
  rfl

/-- Settles O55: every marker is yielded, and one more NEXT, below the bound, finds none ahead. -/
theorem scanYieldsOneResultPerMarker : Obligations.ScanYieldsOneResultPerMarker := by
  intro s ops marks hmarks hbound hops
  have hahead : s.start.markersAhead = marks ++ [] := by rw [markersAhead_start, hmarks, List.append_nil]
  have hnone : (s.start.yielded marks).findMarker = none := by
    rw [findMarker_eq_head?, markersAhead_yielded hahead]
    rfl
  have hb : (s.start.yielded marks).boundReached = false :=
    boundReached_eq_false fun n hn => (Nat.zero_add _).trans_lt (hbound n hn)
  have hlast := nextWithoutMarkerEndsScan { s.start.yielded marks with inputs := .next :: ops } ops rfl rfl hb
    (State.findMarker_eq_none.1 hnone)
  rw [runSteps_scan hahead (fun n hn => (hbound n hn).le) hops, hlast, State.yielded, State.start_count, Nat.zero_add]
  rfl

/-- Settles O56: the first `n` markers are yielded, and one more NEXT meets the bound. -/
theorem boundedScanStopsAtBound : Obligations.BoundedScanStopsAtBound := by
  intro s ops marks n hmarks hmax hn hops
  have hlen : (marks.take n).length = n := List.length_take_of_le hn
  have hahead : s.start.markersAhead = marks.take n ++ marks.drop n := by
    rw [markersAhead_start, hmarks, List.take_append_drop]
  have hbound : ∀ m, s.params.maxResults = .atMost m → (marks.take n).length ≤ m := fun m hm => by
    rw [hmax] at hm
    cases hm
    exact hlen.le
  have hscan := runSteps_scan (ops := ops) hahead hbound (by rw [hlen]; exact hops)
  have hcount : (s.start.yielded (marks.take n)).count = n := (Nat.zero_add _).trans hlen
  have hlast := nextAtBoundEndsScan { s.start.yielded (marks.take n) with inputs := .next :: ops } ops rfl rfl
    (hmax.trans (congrArg _ hcount.symm))
  rw [hlen] at hscan
  rw [hscan, hlast, hcount]
  rfl

/-! ### Every scan ends -/

/-- A NEXT that leaves the scan live found it live and moved CURSOR up, within BUF. -/
theorem nextAnswer_of_live {s : State} (h : s.nextAnswer.active = true) :
    s.active = true ∧ s.cursor < s.nextAnswer.cursor ∧ s.nextAnswer.cursor ≤ s.params.bufLen := by
  obtain ha | ha := Bool.eq_false_or_eq_true s.active
  · obtain hb | hb := Bool.eq_false_or_eq_true s.boundReached
    · rw [nextAnswer_of_bound ha hb] at h
      cases h
    · cases hf : s.findMarker with
      | none =>
        rw [nextAnswer_of_noMarker ha hb hf] at h
        cases h
      | some p =>
        obtain ⟨hle, hlt, -, -⟩ := State.findMarker_eq_some.1 hf
        rw [nextAnswer_of_marker ha hb hf]
        exact ⟨ha, Nat.lt_succ_of_le hle, hlt⟩
  · rw [nextAnswer_of_inactive ha] at h
    cases h

/-- A scan ends within one NEXT more than there are bytes at or above CURSOR. -/
theorem runSteps_ends_scan {s : State} {ops : List HostOp} (n : Nat)
    (hops : s.inputs = List.replicate n .next ++ ops)
    (hlive : s.active = true → s.cursor ≤ s.params.bufLen ∧ s.params.bufLen < s.cursor + n) :
    ∃ t, runSteps n s = .next t ∧ t.active = false ∧ t.inputs = ops := by
  induction n generalizing s with
  | zero =>
    have ha : s.active = false := Bool.eq_false_iff.2 fun ha => by have := hlive ha; omega
    exact ⟨s, rfl, ha, hops⟩
  | succ n ih =>
    rw [runSteps_next (step_next hops)]
    refine ih rfl fun hnext => ?_
    obtain ⟨ha, hlt, hle⟩ := nextAnswer_of_live hnext
    have := hlive ha
    exact ⟨hle, show s.params.bufLen < s.nextAnswer.cursor + n by omega⟩

/-- Settles O57: START puts CURSOR at 0, and every NEXT that does not end the scan moves it up. -/
theorem everyScanEnds : Obligations.EveryScanEnds := by
  intro s ops hops
  have hstart : step s = .next { s.start with inputs := List.replicate (s.params.bufLen + 1) .next ++ ops } :=
    step_input hops
  rw [runSteps_next hstart]
  exact runSteps_ends_scan (s.params.bufLen + 1) rfl fun _ =>
    ⟨Nat.zero_le _, show s.params.bufLen < 0 + (s.params.bufLen + 1) by omega⟩

end Sys2Proof.Machine
end

section
/-! SUPPORT. KIND_OF and CHECKSUM (spec/41_dispatcher.md R122, R125): the map read both ways, and the accumulator as the
exact sum of its bytes mod 2^16, from which the residues of R130 to R132 follow. -/

namespace Sys2Proof.Machine

/-! ### The command-id map -/

theorem kindOf_eq_some_iff {id : Byte} {k : Kind} : kindOf id = some k ↔ id = k.commandId :=
  ⟨kindOf_eq_some, fun h => h ▸ kindOf_commandId k⟩

/-- Settles O4: KIND_OF gives `k` for its command id alone, and the row of `k` in the map holds that id. -/
theorem kindOfIsTheCommandIdMap : Obligations.KindOfIsTheCommandIdMap := by
  intro id k
  rw [kindOf_eq_some_iff]
  cases k <;> simp [Kind.commandId]

/-! ### The accumulator -/

theorem sum16_eq (acc : U16) (bs : List Byte) :
    sum16 acc bs = acc + BitVec.ofNat 16 (bs.map BitVec.toNat).sum := by
  induction bs generalizing acc with
  | nil => simp [sum16]
  | cons b bs ih =>
    rw [sum16, ih, List.map_cons, List.sum_cons, BitVec.ofNat_add, BitVec.ofNat_toNat, BitVec.add_assoc]

theorem toNat_sum16_zero (bs : List Byte) : (sum16 0 bs).toNat = (bs.map BitVec.toNat).sum % 2 ^ 16 := by
  simp [sum16_eq]

/-- Settles O8: the complement of a 16-bit word is its distance from 0xFFFF. -/
theorem checksumIsComplementOfWrappedSum : Obligations.ChecksumIsComplementOfWrappedSum := by
  intro f
  rw [checksum, BitVec.extractLsb'_toNat, BitVec.toNat_not, toNat_sum16_zero]
  simp

/-! ### Residues mod 256 -/

theorem toNat_checksum (f : List Byte) : (checksum f).toNat = 0xFF - (f.dropLast.map BitVec.toNat).sum % 256 := by
  rw [checksumIsComplementOfWrappedSum f]
  omega

/-- The last byte has no part in the checksum. -/
theorem toNat_checksum_concat (summed : List Byte) (last : Byte) :
    (checksum (summed ++ [last])).toNat = 0xFF - (summed.map BitVec.toNat).sum % 256 := by
  rw [toNat_checksum, List.dropLast_concat]

/-- Settles O9: 2^16 is a multiple of 256, and a byte completes the residue of the others to 0xFF in one way. -/
theorem checksumResidues : Obligations.ChecksumResidues := by
  refine ⟨toNat_checksum, fun summed cs => ?_⟩
  have hcs := cs.isLt
  rw [← BitVec.toNat_inj, toNat_checksum_concat, List.map_append, List.sum_append, List.map_singleton,
    List.sum_singleton]
  omega

/-- Lists with the same checksum have sums of the same residue. -/
theorem sum_mod_eq_of_checksum_eq {summed summed' : List Byte} {last last' : Byte}
    (h : checksum (summed ++ [last]) = checksum (summed' ++ [last'])) :
    (summed.map BitVec.toNat).sum % 256 = (summed'.map BitVec.toNat).sum % 256 := by
  have hnat := congrArg BitVec.toNat h
  rw [toNat_checksum_concat, toNat_checksum_concat] at hnat
  omega

/-- Settles O10: two bytes of the same residue mod 256 are equal, and a sum does not depend on the order. -/
theorem checksumDetectsOneByteChanges : Obligations.ChecksumDetectsOneByteChanges := by
  refine ⟨fun before after b b' last last' hne heq => hne ?_, fun summed summed' last last' hperm => ?_⟩
  · have hmod := sum_mod_eq_of_checksum_eq heq
    have hb := b.isLt
    have hb' := b'.isLt
    simp only [List.map_append, List.map_cons, List.sum_append, List.sum_cons] at hmod
    apply BitVec.eq_of_toNat_eq
    omega
  · apply BitVec.eq_of_toNat_eq
    rw [toNat_checksum_concat, toNat_checksum_concat, (hperm.map BitVec.toNat).sum_eq]

/-! ### The sum over a whole frame -/

theorem sum_bytes_le (bs : List Byte) : (bs.map BitVec.toNat).sum ≤ bs.length * 255 := by
  have hbyte : ∀ n ∈ bs.map BitVec.toNat, n ≤ 255 := by
    intro n hn
    obtain ⟨b, -, rfl⟩ := List.mem_map.1 hn
    exact Nat.le_of_lt_succ b.isLt
  simpa using List.sum_le_card_nsmul _ 255 hbyte

/-- The summed bytes of a whole frame: marker, command id and a payload of the kind's length (R61). -/
theorem dropLast_encode_of_isWhole {i : Instr} (h : i.isWhole = true) :
    ∃ payload : List Byte, payload.length = i.kind.payloadLen ∧
      (encode i).dropLast = marker :: i.kind.commandId :: payload := by
  have hlen := Instr.length_body_of_isWhole h
  have hne : i.body ≠ [] := List.ne_nil_of_length_eq_add_one hlen
  exact ⟨i.body.dropLast, by simp [hlen], by simp [encode, List.dropLast_cons_of_ne_nil, hne]⟩

/-- The largest sum is that of a quaternion frame whose payload bytes are all 0xFF. -/
theorem sum_dropLast_encode_le {i : Instr} (h : i.isWhole = true) :
    ((encode i).dropLast.map BitVec.toNat).sum ≤ 4194 := by
  obtain ⟨payload, hlen, hbytes⟩ := dropLast_encode_of_isWhole h
  have hpayload := sum_bytes_le payload
  have hkind : marker.toNat + (i.kind.commandId.toNat + i.kind.payloadLen * 255) ≤ 4194 := by
    cases i.kind <;> decide
  rw [hbytes, List.map_cons, List.map_cons, List.sum_cons, List.sum_cons]
  rw [hlen] at hpayload
  omega

/-- Settles O11: a sum of at most 4194 is its own residue mod 2^16. -/
theorem checksumAccumulatorNeverWraps : Obligations.ChecksumAccumulatorNeverWraps := by
  intro i h
  have hle := sum_dropLast_encode_le h
  exact ⟨by rw [toNat_sum16_zero, Nat.mod_eq_of_lt (by omega)], hle⟩

end Sys2Proof.Machine
end

section
/-! SUPPORT. DISPATCH (spec/41_dispatcher.md R123): its checks in their order, and the errors that NEXT can return
(R133). -/

namespace Sys2Proof.Machine

/-! ### The checks in their order -/

theorem frameLen_eq (k : Kind) : k.frameLen = k.payloadLen + 3 := by
  simp only [Kind.frameLen]
  omega

/-- DISPATCH on two bytes, a payload of the kind's length and a carried checksum, check by check. -/
theorem dispatch_parts (p : Params) {k : Kind} {f head payload : List Byte} {cs : Byte}
    (hf : f = head ++ payload ++ [cs]) (hhead : head.length = 2) (hpayload : payload.length = k.payloadLen) :
    dispatch p k f =
      if cs ≠ checksum f then .err (.invalidChecksum cs (checksum f))
      else if kindEnabled p k then decodePayload k payload
      else .err (.disabledEventKind k) := by
  have hlen : f.length = k.frameLen := by
    simp [hf, hhead, hpayload, Kind.frameLen]
    omega
  have hlast : byteAt f (k.payloadLen + 2) = cs := by
    simp [hf, byteAt, ← hpayload, ← hhead, Nat.add_comm]
  have hmiddle : (f.drop 2).take k.payloadLen = payload := by
    simp [hf, ← hhead, ← hpayload]
  rw [dispatch, if_neg (not_not.2 hlen), validated, hlast, hmiddle]

/-- Settles O16. -/
theorem dispatchChecksInOrder : Obligations.DispatchChecksInOrder := by
  intro p k f
  refine ⟨fun hlen => ?_, fun head payload cs hf hhead hpayload => ?_⟩
  · rw [← frameLen_eq] at hlen ⊢
    exact dispatch_of_length_ne hlen
  · rw [dispatch_parts p hf hhead hpayload]
    refine ⟨fun hne => if_pos hne, fun heq hdisabled => ?_, fun heq henabled => ?_⟩
    · simp [← heq, kindEnabled, hdisabled]
    · simp [← heq, kindEnabled, henabled]

/-! ### The errors of DISPATCH -/

/-- A payload of the right length fails to decode only by a button error. -/
theorem decodePayload_eq_err {k : Kind} {pl : List Byte} {e : Error} (hlen : pl.length = k.payloadLen)
    (h : decodePayload k pl = .err e) : ∃ be, e = .buttonDecodeError be := by
  cases k with
  | button =>
    have hb : buttonResult (.ofBytes pl) = .err e := (withLength_of_length hlen _).symm.trans h
    unfold buttonResult at hb
    split at hb
    · cases hb
      exact ⟨_, rfl⟩
    · split at hb <;> cases hb
      exact ⟨_, rfl⟩
  | _ => cases (withLength_of_length hlen _).symm.trans h

/-- Every error DISPATCH can answer. -/
theorem dispatch_eq_err {p : Params} {k : Kind} {f : List Byte} {e : Error} (h : dispatch p k f = .err e) :
    (f.length ≠ k.frameLen ∧ e = .invalidLength k.frameLen f.length) ∨
      (∃ received calculated, e = .invalidChecksum received calculated) ∨ e = .disabledEventKind k ∨
        ∃ be, e = .buttonDecodeError be := by
  unfold dispatch at h
  split at h
  · next hlen =>
    cases h
    exact .inl ⟨hlen, rfl⟩
  · next hlen =>
    have hpayload : ((f.drop 2).take k.payloadLen).length = k.payloadLen := by
      have := frameLen_eq k
      simp
      omega
    unfold validated at h
    split at h
    · cases h
      exact .inr (.inl ⟨_, _, rfl⟩)
    · split at h
      · exact .inr (.inr (.inr (decodePayload_eq_err hpayload h)))
      · cases h
        exact .inr (.inr (.inl rfl))

/-! ### The errors of NEXT -/

/-- Every error NEXT can find at a marker: a frame cut off behind its command id, a missing or unknown id, or one of the
errors of a whole frame. -/
theorem decodeAt_eq_err {s : State} {p : Nat} {e : Error} (h : decodeAt s p = .err e) :
    (∃ (k : Kind) (actual : Nat), e = .invalidLength k.frameLen actual ∧ 2 ≤ actual ∧ actual < k.frameLen) ∨
      (∃ id, e = .unknownEvent id) ∨ (∃ received calculated, e = .invalidChecksum received calculated) ∨
        (∃ k, e = .disabledEventKind k) ∨ ∃ be, e = .buttonDecodeError be := by
  by_cases hin : s.params.bufLen ≤ p + 1
  · cases (if_pos hin).symm.trans h
    exact .inr (.inl ⟨_, rfl⟩)
  · have hin := Nat.lt_of_not_le hin
    cases hk : kindOf (s.buf.read (p + 1)) with
    | none =>
      cases (decodeAt_of_unknown hin hk).symm.trans h
      exact .inr (.inl ⟨_, rfl⟩)
    | some k =>
      rw [decodeAt_of_kind hin hk] at h
      obtain ⟨hne, rfl⟩ | hchecksum | hdisabled | hbutton := dispatch_eq_err h
      · have hlen : (s.candidateBytes p).length = min (p + k.frameLen) s.params.bufLen - p := by
          rw [State.candidateBytes, Memory.length_slice, State.candidateEnd_of_kind hin hk, frameLen_eq]
        have hframe := frameLen_eq k
        exact .inl ⟨k, _, rfl, by omega, by omega⟩
      · exact .inr (.inr (.inl hchecksum))
      · exact .inr (.inr (.inr (.inl ⟨k, hdisabled⟩)))
      · exact .inr (.inr (.inr (.inr hbutton)))

/-- Only a NEXT that found a marker returns a result, and it is DECODE_AT of that marker. -/
theorem hostEffect_result {op : HostOp} {s t : State} (h : HostEffect op s t) {r : Result}
    (hr : t.received = some r :: s.received) : ∃ p, decodeAt s p = r := by
  cases h with
  | reset => exact absurd hr.symm (List.cons_ne_self _ _)
  | start => exact absurd hr.symm (List.cons_ne_self _ _)
  | noScan => cases hr
  | atBound => cases hr
  | noMarker => cases hr
  | @found _ p =>
    cases hr
    exact ⟨p, rfl⟩
  | write => exact absurd hr.symm (List.cons_ne_self _ _)

theorem frameLen_mem (k : Kind) : k.frameLen ∈ [5, 6, 15, 19] := by
  cases k <;> decide

/-- Settles O52: the returned error is DECODE_AT of a marker, whose one length error is a frame cut off behind its
command id. -/
theorem errorsReachableThroughNext : Obligations.ErrorsReachableThroughNext := by
  intro s t e h hr
  obtain ⟨-, rfl⟩ | ⟨op, rest, -, hop⟩ := step_cases h
  · exact absurd hr.symm (List.cons_ne_self _ _)
  · obtain ⟨p, herr⟩ := hostEffect_result (hostStep_effect hop) hr
    obtain ⟨k, n, rfl, hle, hlt⟩ | ⟨_, rfl⟩ | ⟨_, _, rfl⟩ | ⟨_, rfl⟩ | ⟨_, rfl⟩ := decodeAt_eq_err herr
    · refine ⟨nofun, fun expected actual heq => ?_⟩
      cases heq
      exact ⟨hle, hlt, frameLen_mem k⟩
    all_goals exact ⟨nofun, nofun⟩

end Sys2Proof.Machine
end

section
/-! SUPPORT. The payload decoders as standalone units (spec/42_payload_decoders.md R140 to R149, R157): an F32 field is
the four bytes it is written as, and each decoder gives back the operands whose bytes it is handed. -/

namespace Sys2Proof.Machine

/-! ### F32 fields -/

/-- A pattern is the little-endian number of its four bytes. -/
theorem toNat_eq_of_f32Bytes {v : Word32} {b0 b1 b2 b3 : Byte} (h : f32Bytes v = [b0, b1, b2, b3]) :
    v.toNat = b0.toNat + b1.toNat * 2 ^ 8 + b2.toNat * 2 ^ 16 + b3.toNat * 2 ^ 24 := by
  cases h
  have hv := v.isLt
  simp only [BitVec.extractLsb'_toNat, Nat.shiftRight_eq_div_pow]
  omega

theorem decF32_of_length_lt {bs : List Byte} (h : bs.length < 4) :
    decF32 bs = .raises (.invalidFloatEncoding bs.length) := if_pos h

theorem decF32_of_lt_length {bs : List Byte} (h : 4 < bs.length) : decF32 bs = .refused (.f32SliceTooLong bs.length) :=
  (if_neg h.not_gt).trans (if_neg h.ne')

/-- Only the four bytes of a pattern decode to it. -/
theorem eq_f32Bytes_of_decF32 {bs : List Byte} {v : Word32} (h : decF32 bs = .word v) : bs = f32Bytes v := by
  obtain hlt | hlen | hlt := lt_trichotomy bs.length 4
  · cases (decF32_of_length_lt hlt).symm.trans h
  · match bs, hlen with
    | [b0, b1, b2, b3], _ =>
      cases h
      exact (f32Bytes_ofBytes b0 b1 b2 b3).symm
  · cases (decF32_of_lt_length hlt).symm.trans h

/-- Settles O12: four bytes are those of the word they are assembled into. -/
theorem floatDecoderCases : Obligations.FloatDecoderCases := by
  refine ⟨fun _ => decF32_of_length_lt, fun b0 b1 b2 b3 => ?_, fun _ => decF32_of_lt_length⟩
  exact ⟨f32OfBytes b0 b1 b2 b3, rfl, toNat_eq_of_f32Bytes (f32Bytes_ofBytes b0 b1 b2 b3)⟩

/-! ### Button bytes -/

theorem buttonOf_digit : ∀ n : Fin 8,
    buttonOf (BitVec.ofNat 8 (0x31 + n)) =
      [Button.button1, .button2, .button3, .button4, .up, .down, .left, .right][(n : Nat)]? := by
  decide

theorem buttonOf_of_not_digit {x : Byte} (h : ¬ (0x31 ≤ x.toNat ∧ x.toNat ≤ 0x38)) : buttonOf x = none := by
  have hne : ∀ b : Byte, 0x31 ≤ b.toNat ∧ b.toNat ≤ 0x38 → x ≠ b := fun b hb hx => h (hx ▸ hb)
  simp [buttonOf, hne]

/-- Settles O13: inside the digits '1' to '8' by the eight rows of the table, outside them no row applies. -/
theorem buttonBytesMap : Obligations.ButtonBytesMap := by
  refine ⟨fun x => ?_, fun x => ?_⟩
  · by_cases h : 0x31 ≤ x.toNat ∧ x.toNat ≤ 0x38
    · have hdigit := buttonOf_digit ⟨x.toNat - 0x31, by omega⟩
      have hx : 0x31 + (x.toNat - 0x31) = x.toNat := by omega
      rw [hx, BitVec.ofNat_toNat, BitVec.setWidth_eq] at hdigit
      rw [if_pos h, hdigit]
    · rw [if_neg h, buttonOf_of_not_digit h]
  · simp only [stateOf, ← BitVec.toNat_inj]
    rfl

/-! ### The decoders -/

theorem withLength_of_length_ne {len : Nat} {pl : List Byte} (h : pl.length ≠ len) (r : Result) :
    withLength len pl r = .err (.invalidLength len pl.length) := if_neg h

section
variable {b st : Byte}

theorem decButton_of_unknownButton (hb : buttonOf b = none) :
    decButton [b, st] = .err (.buttonDecodeError (.unknownButton b)) := by
  simp [decButton, withLength, ButtonOperands.ofBytes, byteAt, buttonResult, hb]

theorem decButton_of_unknownState {bt : Button} (hb : buttonOf b = some bt) (hst : stateOf st = none) :
    decButton [b, st] = .err (.buttonDecodeError (.unknownButtonState st)) := by
  simp [decButton, withLength, ButtonOperands.ofBytes, byteAt, buttonResult, hb, hst]

theorem decButton_of_known {bt : Button} {bs : ButtonState} (hb : buttonOf b = some bt) (hst : stateOf st = some bs) :
    decButton [b, st] = .ok (.buttonEvent bt bs) := by
  simp [decButton, withLength, ButtonOperands.ofBytes, byteAt, buttonResult, hb, hst]

end

/-- Settles O14, by what each of the two byte maps answers, the button byte's first. -/
theorem buttonDecoderOrder : Obligations.ButtonDecoderOrder :=
  ⟨fun _ hlen => withLength_of_length_ne hlen _, fun _ _ => decButton_of_unknownButton,
    fun _ _ _ => decButton_of_unknownState, fun _ _ _ _ => decButton_of_known⟩

/-- A decoder answers what the operands mean whose bytes it is handed, when they can be read back from their bytes. -/
theorem withLength_toBytes {α : Type} {toBytes : α → List Byte} {fields : List Byte → α} {len : Nat}
    (hlen : ∀ o, (toBytes o).length = len) (hfields : ∀ o, fields (toBytes o) = o) (result : α → Result) (o : α) :
    withLength len (toBytes o) (result (fields (toBytes o))) = result o := by
  rw [withLength_of_length (hlen o), hfields]

theorem decColor_toBytes : ∀ o : ColorOperands, decColor o.toBytes = colorResult o :=
  withLength_toBytes ColorOperands.length_toBytes ColorOperands.ofBytes_toBytes _

theorem decQuaternion_toBytes : ∀ o : QuaternionOperands, decQuaternion o.toBytes = quaternionResult o :=
  withLength_toBytes QuaternionOperands.length_toBytes QuaternionOperands.ofBytes_toBytes _

theorem decAccelerometer_toBytes : ∀ o : VectorOperands, decAccelerometer o.toBytes = accelerometerResult o :=
  withLength_toBytes VectorOperands.length_toBytes VectorOperands.ofBytes_toBytes _

theorem decGyro_toBytes : ∀ o : VectorOperands, decGyro o.toBytes = gyroResult o :=
  withLength_toBytes VectorOperands.length_toBytes VectorOperands.ofBytes_toBytes _

theorem decMagnetometer_toBytes : ∀ o : VectorOperands, decMagnetometer o.toBytes = magnetometerResult o :=
  withLength_toBytes VectorOperands.length_toBytes VectorOperands.ofBytes_toBytes _

theorem decLocation_toBytes : ∀ o : LocationOperands, decLocation o.toBytes = locationResult o :=
  withLength_toBytes LocationOperands.length_toBytes LocationOperands.ofBytes_toBytes _

/-- Settles O15: slices that DEC_F32 decodes to words are the bytes of these words, and so together the bytes of the
operands that each decoder gives back. -/
theorem fieldDecodersReturnTheirFields : Obligations.FieldDecodersReturnTheirFields := by
  refine ⟨fun pl => ?_, fun r g b => decColor_toBytes ⟨r, g, b⟩, fun px py pz pw x y z w hx hy hz hw => ?_,
    fun px py pz x y z hx hy hz => ?_⟩
  · exact ⟨fun h => withLength_of_length_ne h _, fun h => withLength_of_length_ne h _, fun h =>
      ⟨withLength_of_length_ne h _, withLength_of_length_ne h _, withLength_of_length_ne h _,
        withLength_of_length_ne h _⟩⟩
  · rw [eq_f32Bytes_of_decF32 hx, eq_f32Bytes_of_decF32 hy, eq_f32Bytes_of_decF32 hz, eq_f32Bytes_of_decF32 hw]
    exact decQuaternion_toBytes ⟨x, y, z, w⟩
  · rw [eq_f32Bytes_of_decF32 hx, eq_f32Bytes_of_decF32 hy, eq_f32Bytes_of_decF32 hz]
    exact ⟨decAccelerometer_toBytes ⟨x, y, z⟩, decGyro_toBytes ⟨x, y, z⟩, decMagnetometer_toBytes ⟨x, y, z⟩,
      decLocation_toBytes ⟨x, y, z⟩⟩

end Sys2Proof.Machine
end

section
/-! SUPPORT. The seven frame kinds (spec/42_payload_decoders.md R150 to R156): one lemma for every whole frame, from
DISPATCH's checks in their order and the checksum as a sum of bytes. -/

namespace Sys2Proof.Machine

/-! ### The checksum as a sum of bytes -/

theorem toNat_sum_bytes (bs : List Byte) : bs.sum.toNat = (bs.map BitVec.toNat).sum % 256 := by
  induction bs with
  | nil => rfl
  | cons b bs ih => simp [ih]

theorem checksum_concat (summed : List Byte) (last : Byte) : checksum (summed ++ [last]) = ~~~ summed.sum := by
  apply BitVec.eq_of_toNat_eq
  rw [toNat_checksum_concat, BitVec.toNat_not, toNat_sum_bytes]

theorem sum_f32Bytes (v : Word32) : (f32Bytes v).sum = wordByteSum v := by
  simp [f32Bytes, wordByteSum, add_assoc]

section
variable (b : Byte)

theorem add_sum_toBytes_quaternion (o : QuaternionOperands) :
    b + o.toBytes.sum = b + wordByteSum o.x + wordByteSum o.y + wordByteSum o.z + wordByteSum o.w := by
  simp [QuaternionOperands.toBytes, sum_f32Bytes, add_assoc]

theorem add_sum_toBytes_vector (o : VectorOperands) :
    b + o.toBytes.sum = b + wordByteSum o.x + wordByteSum o.y + wordByteSum o.z := by
  simp [VectorOperands.toBytes, sum_f32Bytes, add_assoc]

theorem add_sum_toBytes_location (o : LocationOperands) :
    b + o.toBytes.sum = b + wordByteSum o.latitude + wordByteSum o.longitude + wordByteSum o.altitude := by
  simp [LocationOperands.toBytes, sum_f32Bytes, add_assoc]

theorem add_sum_toBytes_color (o : ColorOperands) : b + o.toBytes.sum = b + o.red + o.green + o.blue := by
  simp [ColorOperands.toBytes, add_assoc]

theorem add_sum_toBytes_button (o : ButtonOperands) : b + o.toBytes.sum = b + o.button + o.state := by
  simp [ButtonOperands.toBytes, add_assoc]

end

/-! ### Every whole frame -/

/-- A whole frame completes with the first failed check, else with what the payload decodes to; `sum` is the sum of the
bytes that the checksum covers. -/
theorem exec_whole {i : Instr} {payload : List Byte} {cs sum : Byte} {r : Result} (s : State)
    (hwhole : i.isWhole = true) (hwf : i.wellFormed = true) (hbody : i.body = payload ++ [cs])
    (hsum : marker + i.kind.commandId + payload.sum = sum) (hdecode : decodePayload i.kind payload = r) :
    exec i s = .next (s.complete
      (if cs ≠ ~~~ sum then .err (.invalidChecksum cs (~~~ sum))
       else if s.params.enabledKinds.getLsbD (kindCode i.kind) = false then .err (.disabledEventKind i.kind)
       else r)) := by
  have hframe : encode i = [marker, i.kind.commandId] ++ payload ++ [cs] := by simp [encode, hbody]
  have hpayload : payload.length = i.kind.payloadLen := by
    simpa [hbody] using Instr.length_body_of_isWhole hwhole
  have hchecksum : checksum (encode i) = ~~~ sum := by
    rw [hframe, checksum_concat, ← hsum]
    simp [add_assoc]
  rw [exec_eq, instrResult_eq_dispatch s.params hwf, dispatch_parts s.params hframe rfl hpayload, hchecksum, hdecode,
    kindEnabled]
  cases s.params.enabledKinds.getLsbD (kindCode i.kind) <;> rfl

/-! ### The seven kinds -/

/-- Settles O17: the payload is the two operand bytes, and what it decodes to is decided by the button byte first. -/
theorem buttonFrameCompletes : Obligations.ButtonFrameCompletes := by
  refine fun s => ⟨fun body => rfl, fun b st cs => ?_⟩
  refine exec_whole s rfl rfl rfl (add_sum_toBytes_button _ ⟨b, st⟩) ?_
  cases hb : buttonOf b with
  | none => exact decButton_of_unknownButton hb
  | some bt =>
    cases hst : stateOf st with
    | none => exact decButton_of_unknownState hb hst
    | some bs => exact decButton_of_known hb hst

/-- Settles O18: a cut-off frame fails the length check; of a whole one the payload is the three color bytes. -/
theorem colorFrameCompletes : Obligations.ColorFrameCompletes := by
  refine fun s => ⟨fun body => rfl, fun r g b cs => ?_⟩
  exact exec_whole s rfl rfl rfl (add_sum_toBytes_color _ ⟨r, g, b⟩) (decColor_toBytes ⟨r, g, b⟩)

/-- Settles O19: the payload is the bytes of the four patterns, which decode back to them. -/
theorem quaternionFrameCompletes : Obligations.QuaternionFrameCompletes := by
  refine fun s => ⟨fun body => rfl, ?_⟩
  rintro x y z w cs _ rfl
  exact exec_whole s rfl rfl rfl (add_sum_toBytes_quaternion _ ⟨x, y, z, w⟩) (decQuaternion_toBytes ⟨x, y, z, w⟩)

/-- Settles O20: the payload is the bytes of the three patterns, which decode back to them. -/
theorem accelerometerFrameCompletes : Obligations.AccelerometerFrameCompletes := by
  refine fun s => ⟨fun body => rfl, ?_⟩
  rintro x y z cs _ rfl
  exact exec_whole s rfl rfl rfl (add_sum_toBytes_vector _ ⟨x, y, z⟩) (decAccelerometer_toBytes ⟨x, y, z⟩)

/-- Settles O21, as O20 with the decoder and the command id of the gyro. -/
theorem gyroFrameCompletes : Obligations.GyroFrameCompletes := by
  refine fun s => ⟨fun body => rfl, ?_⟩
  rintro x y z cs _ rfl
  exact exec_whole s rfl rfl rfl (add_sum_toBytes_vector _ ⟨x, y, z⟩) (decGyro_toBytes ⟨x, y, z⟩)

/-- Settles O22, as O20 with the decoder and the command id of the magnetometer. -/
theorem magnetometerFrameCompletes : Obligations.MagnetometerFrameCompletes := by
  refine fun s => ⟨fun body => rfl, ?_⟩
  rintro x y z cs _ rfl
  exact exec_whole s rfl rfl rfl (add_sum_toBytes_vector _ ⟨x, y, z⟩) (decMagnetometer_toBytes ⟨x, y, z⟩)

/-- Settles O23: latitude, longitude and altitude are laid out and decoded in this order. -/
theorem locationFrameCompletes : Obligations.LocationFrameCompletes := by
  refine fun s => ⟨fun body => rfl, ?_⟩
  rintro lat lon alt cs _ rfl
  exact exec_whole s rfl rfl rfl (add_sum_toBytes_location _ ⟨lat, lon, alt⟩) (decLocation_toBytes ⟨lat, lon, alt⟩)

/-- Settles O3: each example is a fixed word, and the decoder computes its instruction. -/
theorem exampleFramesDecode : Obligations.ExampleFramesDecode := ⟨rfl, rfl, rfl, rfl, rfl, rfl, rfl⟩

end Sys2Proof.Machine
end

section
/-! SUPPORT. The errors of a frame (spec/60_exceptions.md): the one way a frame completes (R170, R183), the catalogue
(R171, R180), and each error of DECODE_AT with its one cause (R172 to R178). -/

namespace Sys2Proof.Machine

/-- Settles O24: every instruction completes by `State.complete`, which moves CURSOR, COUNT and the returned values. -/
theorem framesChangeNothingElse : Obligations.FramesChangeNothingElse := by
  intro i s t h
  cases (exec_eq i s).symm.trans h
  exact ⟨rfl, rfl, ⟨_, rfl⟩, rfl, rfl, rfl, fun _ => rfl, rfl⟩

/-- Settles O58: each row is the one the two tables are written with. -/
theorem errorCatalogue : Obligations.ErrorCatalogue :=
  ⟨fun _ => ⟨rfl, rfl⟩, fun _ => ⟨rfl, rfl⟩, fun _ => ⟨rfl, rfl⟩, fun _ => rfl, fun _ _ => ⟨rfl, rfl⟩,
    fun _ _ => ⟨rfl, rfl⟩, fun _ => ⟨rfl, rfl⟩⟩

/-! ### Bytes that no table lists -/

theorem kindOf_eq_none_iff {id : Byte} :
    kindOf id = none ↔ id ∉ [(0x42 : Byte), 0x43, 0x51, 0x41, 0x47, 0x4D, 0x4C] := by
  simp [kindOf, ite_eq_iff]

theorem buttonOf_eq_none_iff {b : Byte} : buttonOf b = none ↔ ¬ (0x31 ≤ b.toNat ∧ b.toNat ≤ 0x38) := by
  refine ⟨fun hnone hdigit => ?_, buttonOf_of_not_digit⟩
  rw [buttonBytesMap.1 b, if_pos hdigit, List.getElem?_eq_none_iff] at hnone
  simp only [List.length_cons, List.length_nil] at hnone
  omega

theorem stateOf_eq_none_iff {b : Byte} : stateOf b = none ↔ b ≠ 0x30 ∧ b ≠ 0x31 := by
  simp [stateOf, ite_eq_iff]

/-! ### DECODE_AT of a whole frame -/

/-- A whole frame of kind `k` stands at the marker at `p`. -/
structure State.WholeFrame (s : State) (p : Nat) (k : Kind) : Prop where
  commandId : s.buf.read (p + 1) = k.commandId
  inside : p + (k.payloadLen + 3) ≤ s.params.bufLen

/-- The checksum byte that the frame of kind `k` at `p` carries. -/
def State.carriedChecksum (s : State) (p : Nat) (k : Kind) : Byte := s.buf.read (p + k.payloadLen + 2)

/-- CHECKSUM of the frame of kind `k` at `p`. -/
def State.frameChecksum (s : State) (p : Nat) (k : Kind) : Byte := checksum (s.buf.slice p (p + (k.payloadLen + 3)))

theorem Memory.slice_concat (m : Memory) {a b : Nat} (h : a ≤ b) : m.slice a (b + 1) = m.slice a b ++ [m.read b] := by
  obtain ⟨n, rfl⟩ := Nat.exists_eq_add_of_le h
  have hlong : a + n + 1 - a = n + 1 := by omega
  simp [Memory.slice, hlong, List.range'_concat]

/-- The bytes of a frame: marker and command id, payload, checksum (30_encoding.md R61). -/
theorem Memory.slice_frame (m : Memory) (p len : Nat) :
    m.slice p (p + (len + 3)) =
      [m.read p, m.read (p + 1)] ++ m.slice (p + 2) (p + len + 2) ++ [m.read (p + len + 2)] := by
  have hend : p + (len + 3) = p + len + 2 + 1 := by omega
  rw [hend, Memory.slice_concat m (by omega), Memory.slice_cons m (by omega), Memory.slice_cons m (by omega)]
  rfl

theorem Memory.length_payload (m : Memory) (p len : Nat) : (m.slice (p + 2) (p + len + 2)).length = len := by
  rw [Memory.length_slice]
  omega

theorem Memory.slice_pair (m : Memory) (a : Nat) : m.slice a (a + 2) = [m.read a, m.read (a + 1)] := by
  simp [Memory.slice, List.range'_succ]

section
variable {s : State} {p : Nat} {k : Kind}

theorem State.WholeFrame.kindOf_eq (h : s.WholeFrame p k) : kindOf (s.buf.read (p + 1)) = some k :=
  kindOf_eq_some_iff.2 h.commandId

theorem State.WholeFrame.unique {k' : Kind} (h : s.WholeFrame p k) (h' : s.WholeFrame p k') : k = k' :=
  Option.some.inj (h.kindOf_eq.symm.trans h'.kindOf_eq)

/-- DECODE_AT of a frame inside BUF: DISPATCH's checks on the bytes where they stand. -/
theorem decodeAt_of_wholeFrame (h : s.WholeFrame p k) :
    decodeAt s p =
      if s.carriedChecksum p k ≠ s.frameChecksum p k then
        .err (.invalidChecksum (s.carriedChecksum p k) (s.frameChecksum p k))
      else if kindEnabled s.params k then decodePayload k (s.buf.slice (p + 2) (p + k.payloadLen + 2))
      else .err (.disabledEventKind k) := by
  have hinside := h.inside
  have hin : p + 1 < s.params.bufLen := by omega
  rw [decodeAt_of_kind hin h.kindOf_eq, State.candidateBytes, State.candidateEnd_of_kind hin h.kindOf_eq,
    Nat.min_eq_left hinside]
  exact dispatch_parts s.params (s.buf.slice_frame p k.payloadLen) rfl (s.buf.length_payload p k.payloadLen)

theorem decodeAt_of_missing (h : s.params.bufLen ≤ p + 1) : decodeAt s p = .err (.unknownEvent none) := if_pos h

/-- A frame whose checksum and enablement bit are good decodes to what its payload does. -/
theorem decodeAt_of_enabled (h : s.WholeFrame p k) (hsum : s.carriedChecksum p k = s.frameChecksum p k)
    (henabled : kindEnabled s.params k = true) :
    decodeAt s p = decodePayload k (s.buf.slice (p + 2) (p + k.payloadLen + 2)) := by
  rw [decodeAt_of_wholeFrame h, if_neg (not_not.2 hsum), if_pos henabled]

theorem decodeAt_of_button (h : s.WholeFrame p .button) (hsum : s.carriedChecksum p .button = s.frameChecksum p .button)
    (henabled : kindEnabled s.params .button = true) :
    decodeAt s p = decButton [s.buf.read (p + 2), s.buf.read (p + 3)] :=
  (decodeAt_of_enabled h hsum henabled).trans (congrArg decButton (s.buf.slice_pair (p + 2)))

end

/-! ### The causes -/

/-- `ErrorCause s p e`: at the marker at `p` there is cause for the error `e`; one constructor for each cause that
60_exceptions.md names. -/
inductive ErrorCause (s : State) (p : Nat) : Error → Prop where
  /-- R172 -/
  | missingId (last : s.params.bufLen ≤ p + 1) : ErrorCause s p (.unknownEvent none)
  /-- R173 -/
  | unknownId (inside : p + 1 < s.params.bufLen) (id : kindOf (s.buf.read (p + 1)) = none) :
      ErrorCause s p (.unknownEvent (some (s.buf.read (p + 1))))
  /-- R174, through DECODE_AT (R133) -/
  | cut {k : Kind} (inside : p + 1 < s.params.bufLen) (id : s.buf.read (p + 1) = k.commandId)
      (ends : s.params.bufLen < p + (k.payloadLen + 3)) :
      ErrorCause s p (.invalidLength (k.payloadLen + 3) (s.params.bufLen - p))
  /-- R175 -/
  | checksum {k : Kind} (frame : s.WholeFrame p k) (sum : s.carriedChecksum p k ≠ s.frameChecksum p k) :
      ErrorCause s p (.invalidChecksum (s.carriedChecksum p k) (s.frameChecksum p k))
  /-- R176 -/
  | disabled {k : Kind} (frame : s.WholeFrame p k) (sum : s.carriedChecksum p k = s.frameChecksum p k)
      (enabled : kindEnabled s.params k = false) : ErrorCause s p (.disabledEventKind k)
  /-- R177 -/
  | button (frame : s.WholeFrame p .button) (sum : s.carriedChecksum p .button = s.frameChecksum p .button)
      (enabled : kindEnabled s.params .button = true) (byte : buttonOf (s.buf.read (p + 2)) = none) :
      ErrorCause s p (.buttonDecodeError (.unknownButton (s.buf.read (p + 2))))
  /-- R178 -/
  | buttonState (frame : s.WholeFrame p .button) (sum : s.carriedChecksum p .button = s.frameChecksum p .button)
      (enabled : kindEnabled s.params .button = true) (byte : buttonOf (s.buf.read (p + 2)) ≠ none)
      (state : stateOf (s.buf.read (p + 3)) = none) :
      ErrorCause s p (.buttonDecodeError (.unknownButtonState (s.buf.read (p + 3))))

theorem ErrorCause.decodeAt_eq {s : State} {p : Nat} {e : Error} (h : ErrorCause s p e) : decodeAt s p = .err e := by
  cases h with
  | missingId last => exact decodeAt_of_missing last
  | unknownId inside id => exact decodeAt_of_unknown inside id
  | cut inside id ends => exact decodeAt_of_cut inside (kindOf_eq_some_iff.2 id) ends
  | checksum frame sum => rw [decodeAt_of_wholeFrame frame, if_pos sum]
  | disabled frame sum enabled =>
    rw [decodeAt_of_wholeFrame frame, if_neg (not_not.2 sum), enabled]
    rfl
  | button frame sum enabled byte => rw [decodeAt_of_button frame sum enabled, decButton_of_unknownButton byte]
  | buttonState frame sum enabled byte state =>
    obtain ⟨b, hb⟩ := Option.ne_none_iff_exists'.1 byte
    rw [decodeAt_of_button frame sum enabled, decButton_of_unknownState hb state]

/-- Behind the checksum and the enablement bit only a button frame can fail, by its button byte first. -/
theorem errorCause_of_enabled {s : State} {p : Nat} {k : Kind} {e : Error} (frame : s.WholeFrame p k)
    (sum : s.carriedChecksum p k = s.frameChecksum p k) (enabled : kindEnabled s.params k = true)
    (h : decodeAt s p = .err e) : ErrorCause s p e := by
  cases k with
  | button =>
    rw [decodeAt_of_button frame sum enabled] at h
    cases hb : buttonOf (s.buf.read (p + 2)) with
    | none =>
      cases (decButton_of_unknownButton hb).symm.trans h
      exact .button frame sum enabled hb
    | some b =>
      cases hst : stateOf (s.buf.read (p + 3)) with
      | none =>
        cases (decButton_of_unknownState hb hst).symm.trans h
        exact .buttonState frame sum enabled (by simp [hb]) hst
      | some st => cases (decButton_of_known hb hst).symm.trans h
  | _ =>
    rw [decodeAt_of_enabled frame sum enabled] at h
    cases (withLength_of_length (s.buf.length_payload p _) _).symm.trans h

theorem errorCause_of_wholeFrame {s : State} {p : Nat} {k : Kind} {e : Error} (frame : s.WholeFrame p k)
    (h : decodeAt s p = .err e) : ErrorCause s p e := by
  by_cases sum : s.carriedChecksum p k = s.frameChecksum p k
  · cases enabled : kindEnabled s.params k with
    | true => exact errorCause_of_enabled frame sum enabled h
    | false =>
      have hcause := ErrorCause.disabled frame sum enabled
      cases hcause.decodeAt_eq.symm.trans h
      exact hcause
  · have hcause := ErrorCause.checksum frame sum
    cases hcause.decodeAt_eq.symm.trans h
    exact hcause

/-- DECODE_AT yields an error exactly where there is cause for it. -/
theorem decodeAt_eq_err_iff {s : State} {p : Nat} {e : Error} : decodeAt s p = .err e ↔ ErrorCause s p e := by
  refine ⟨fun h => ?_, ErrorCause.decodeAt_eq⟩
  by_cases hin : s.params.bufLen ≤ p + 1
  · cases (decodeAt_of_missing hin).symm.trans h
    exact .missingId hin
  · have hin := Nat.lt_of_not_le hin
    cases hk : kindOf (s.buf.read (p + 1)) with
    | none =>
      cases (decodeAt_of_unknown hin hk).symm.trans h
      exact .unknownId hin hk
    | some k =>
      by_cases hcut : s.params.bufLen < p + (k.payloadLen + 3)
      · cases (decodeAt_of_cut hin hk hcut).symm.trans h
        exact .cut hin (kindOf_eq_some hk) hcut
      · exact errorCause_of_wholeFrame ⟨kindOf_eq_some hk, Nat.le_of_not_lt hcut⟩ h

/-! ### The one cause of each error -/

section
variable {s : State} {p : Nat}

theorem errorCause_missingId_iff : ErrorCause s p (.unknownEvent none) ↔ s.params.bufLen ≤ p + 1 := by
  refine ⟨?_, .missingId⟩
  rintro ⟨last⟩
  exact last

theorem errorCause_unknownId_iff {id : Byte} :
    ErrorCause s p (.unknownEvent (some id)) ↔
      p + 1 < s.params.bufLen ∧ id = s.buf.read (p + 1) ∧
        id ∉ [(0x42 : Byte), 0x43, 0x51, 0x41, 0x47, 0x4D, 0x4C] := by
  rw [← kindOf_eq_none_iff]
  constructor
  · rintro ⟨⟩
    next inside id => exact ⟨inside, rfl, id⟩
  · rintro ⟨inside, rfl, id⟩
    exact .unknownId inside id

theorem errorCause_invalidLength_iff {expected actual : Nat} :
    ErrorCause s p (.invalidLength expected actual) ↔
      ∃ k : Kind, p + 1 < s.params.bufLen ∧ s.buf.read (p + 1) = k.commandId ∧ expected = k.payloadLen + 3 ∧
        actual = s.params.bufLen - p ∧ actual < expected := by
  constructor
  · rintro ⟨⟩
    next k inside id ends => exact ⟨k, inside, id, rfl, rfl, by omega⟩
  · rintro ⟨k, inside, id, rfl, rfl, hlt⟩
    exact .cut inside id (by omega)

variable {k : Kind} (frame : s.WholeFrame p k)
include frame

theorem errorCause_invalidChecksum_iff {received calculated : Byte} :
    ErrorCause s p (.invalidChecksum received calculated) ↔
      received = s.carriedChecksum p k ∧ calculated = s.frameChecksum p k ∧ received ≠ calculated := by
  constructor
  · rintro ⟨⟩
    next frame' sum =>
      obtain rfl := frame.unique frame'
      exact ⟨rfl, rfl, sum⟩
  · rintro ⟨rfl, rfl, sum⟩
    exact .checksum frame sum

theorem errorCause_disabled_iff {k' : Kind} :
    ErrorCause s p (.disabledEventKind k') ↔
      k' = k ∧ s.carriedChecksum p k = s.frameChecksum p k ∧ kindEnabled s.params k = false := by
  constructor
  · rintro ⟨⟩
    next frame' sum enabled =>
      obtain rfl := frame.unique frame'
      exact ⟨rfl, sum, enabled⟩
  · rintro ⟨rfl, sum, enabled⟩
    exact .disabled frame sum enabled

theorem errorCause_unknownButton_iff {b : Byte} :
    ErrorCause s p (.buttonDecodeError (.unknownButton b)) ↔
      k = .button ∧ s.carriedChecksum p .button = s.frameChecksum p .button ∧
        kindEnabled s.params .button = true ∧ b = s.buf.read (p + 2) ∧ ¬ (0x31 ≤ b.toNat ∧ b.toNat ≤ 0x38) := by
  rw [← buttonOf_eq_none_iff]
  constructor
  · rintro ⟨⟩
    next frame' sum enabled byte => exact ⟨frame.unique frame', sum, enabled, rfl, byte⟩
  · rintro ⟨rfl, sum, enabled, rfl, byte⟩
    exact .button frame sum enabled byte

theorem errorCause_unknownButtonState_iff {b : Byte} :
    ErrorCause s p (.buttonDecodeError (.unknownButtonState b)) ↔
      k = .button ∧ s.carriedChecksum p .button = s.frameChecksum p .button ∧
        kindEnabled s.params .button = true ∧
        (0x31 ≤ (s.buf.read (p + 2)).toNat ∧ (s.buf.read (p + 2)).toNat ≤ 0x38) ∧
        b = s.buf.read (p + 3) ∧ b ≠ 0x30 ∧ b ≠ 0x31 := by
  rw [← stateOf_eq_none_iff, ← not_iff_comm.1 buttonOf_eq_none_iff.symm]
  constructor
  · rintro ⟨⟩
    next frame' sum enabled byte state => exact ⟨frame.unique frame', sum, enabled, byte, rfl, state⟩
  · rintro ⟨rfl, sum, enabled, byte, rfl, state⟩
    exact .buttonState frame sum enabled byte state

end

/-- Settles O29: DECODE_AT yields an error exactly where there is cause for it, and each error has its one cause. -/
theorem eachErrorHasItsOneCause : Obligations.EachErrorHasItsOneCause := by
  intro s p hp _
  have hlast : s.params.bufLen ≤ p + 1 ↔ p + 1 = s.params.bufLen := by omega
  simp only [decodeAt_eq_err_iff]
  refine ⟨errorCause_missingId_iff.trans hlast, fun _ => errorCause_unknownId_iff,
    fun _ _ => errorCause_invalidLength_iff, fun k hid hinside => ?_⟩
  have frame : s.WholeFrame p k := ⟨hid, hinside⟩
  exact ⟨fun _ _ => errorCause_invalidChecksum_iff frame, fun _ => errorCause_disabled_iff frame,
    fun _ => errorCause_unknownButton_iff frame, fun _ => errorCause_unknownButtonState_iff frame⟩

end Sys2Proof.Machine
end

section
/-! SUPPORT. The block reset (spec/70_reset_and_hazards.md R200): it leaves the block at rest, and the block stays at rest
over every run in which the host issues no START. -/

namespace Sys2Proof.Machine

/-- ACTIVE, CURSOR and COUNT hold their reset values (10_state.md R26). -/
def State.atRest (s : State) : Prop := s.active = false ∧ s.cursor = 0 ∧ s.count = 0

theorem blockReset_atRest (s : State) : s.blockReset.atRest := ⟨rfl, rfl, rfl⟩

/-- A run that answers a state has taken a first step, and answers it from there. -/
theorem runSteps_succ_eq_next {s u : State} {n : Nat} (h : runSteps (n + 1) s = .next u) :
    ∃ t, step s = .next t ∧ runSteps n t = .next u := by
  cases hs : step s with
  | next t => exact ⟨t, rfl, runSteps_next hs n ▸ h⟩
  | fault r => cases (runSteps_fault hs n).symm.trans h
  | refused r => cases (runSteps_refused hs n).symm.trans h

/-- No operation but START ends the rest, and at rest NEXT returns None (decision D13). -/
theorem hostEffect_of_atRest {op : HostOp} {s t : State} (h : HostEffect op s t) (hop : op ≠ .start) (hs : s.atRest) :
    t.atRest ∧ t.received = List.replicate ([op].count .next) none ++ s.received := by
  have idle : s.active ≠ true := Bool.eq_false_iff.1 hs.1
  cases h with
  | reset => exact ⟨blockReset_atRest s, rfl⟩
  | start => exact absurd rfl hop
  | noScan => exact ⟨hs, rfl⟩
  | write => exact ⟨hs, rfl⟩
  | atBound active => exact absurd active idle
  | noMarker active => exact absurd active idle
  | found active => exact absurd active idle

/-- By induction on the number of steps: the first step keeps the rest, and the rest of the run starts from the queue
without its first operation. -/
theorem runSteps_of_atRest {n : Nat} {s u : State} (hs : s.atRest) (hops : ∀ op ∈ s.inputs.take n, op ≠ .start)
    (h : runSteps n s = .next u) :
    u.atRest ∧ u.params = s.params ∧
      u.received = List.replicate ((s.inputs.take n).count .next) none ++ s.received := by
  induction n generalizing s with
  | zero =>
    cases h
    exact ⟨hs, rfl, rfl⟩
  | succ n ih =>
    obtain ⟨t, hstep, hrun⟩ := runSteps_succ_eq_next h
    obtain ⟨hi, rfl⟩ | ⟨op, rest, hi, hop⟩ := step_cases hstep
    · simpa [hi] using ih hs (by simp [hi]) hrun
    · have heffect := hostStep_effect hop
      have hinputs : t.inputs = rest := hostEffect_inputs heffect
      simp only [hi, List.take_succ_cons, List.forall_mem_cons] at hops ⊢
      obtain ⟨hne, hrest⟩ := hops
      obtain ⟨ht, hreceived⟩ := hostEffect_of_atRest heffect hne hs
      obtain ⟨hu, hparams, hlater⟩ := ih ht (hinputs ▸ hrest) hrun
      refine ⟨hu, hparams.trans (configurationNeverChanges s t hstep), ?_⟩
      calc u.received
          = List.replicate ((rest.take n).count .next) none ++
              (List.replicate ([op].count .next) none ++ s.received) := by rw [hlater, hinputs, hreceived]
        _ = List.replicate ((op :: rest.take n).count .next) none ++ s.received := by
          rw [← List.append_assoc, List.replicate_append_replicate, Nat.add_comm, ← List.count_append,
            List.singleton_append]

/-- Settles O31: the reset leaves the block at rest, and the run that follows starts there. -/
theorem blockResetStopsTheScan : Obligations.BlockResetStopsTheScan := by
  intro s ops hop
  refine ⟨step_input hop, fun n u hops hrun => ?_⟩
  obtain ⟨⟨hactive, hcursor, hcount⟩, hparams, hreceived⟩ :=
    runSteps_of_atRest (blockReset_atRest { s with inputs := ops }) hops hrun
  exact ⟨hactive, hcursor, hcount, hparams, hreceived⟩

end Sys2Proof.Machine
end
